-- ==== Sys2Proof/Word.lean ====
section
/-! DEFINITION. The words the part's interfaces carry: bytes on the SPI port and the field lines, and the wider
values of spec/11_formats.md (R189). -/
namespace Sys2Proof

/-- One byte on the SPI port or on a field line. -/
abbrev Byte := BitVec 8

/-- A 16-bit value: a cause set, a unit address, an operation count, a length in sample clocks. -/
abbrev Word16 := BitVec 16

/-- A 32-bit value: a service key, a cookie, a Time Count, a run number. -/
abbrev Word32 := BitVec 32

end Sys2Proof
end

