-- ==== Sys2Proof/Syntax.lean ====
section
/-! DEFINITION. The commands of the part: one constructor of `Instr` for each row of spec/opcode_table.json, with the
operands the step takes from outside. Parameters of a request are not operands here: they stand in the 32 bytes
of the request in service (spec/11_formats.md, 11.3). -/
namespace Sys2Proof

/-- An index of the Connection Table (R1). -/
abbrev RecIdx := Fin 512
/-- A slot of the Move Table (R52). -/
abbrev SlotNo := Fin 32
/-- A field line (R119). -/
abbrev LineNo := Fin 2
/-- A feeder (R85). -/
abbrev FeederNo := Fin 8
/-- An entry of the Rate Table (R141). -/
abbrev RateNo := Fin 8
/-- An entry of the parked list (R177). -/
abbrev ParkNo := Fin 8

/-- How much of a step that takes time a command is (log 1). The table's step is `whole`; `begins` and `ends` split
it where the spec says what other events do to an operation in progress (R23, R25, R91, R98, R118, R138, R154). -/
inductive Part where
  | whole
  | begins
  | ends
deriving DecidableEq, Repr

/-- How much of an SPI transaction a command is (R167, log 1): all of it; CSn's fall, when the port summary is taken;
CSn's fall while RESETn is low (R181); its operation byte decoded, with CSn's fall before it where that has not come;
or the end, with its last byte. -/
inductive SpiPart where
  | whole
  | selects
  | inReset
  | begins
  | ends
deriving DecidableEq, Repr

/-- The bytes of a WRITE CONTROL that its operation does not itself name (R171, 11.2). -/
structure Control where
  /-- how much of the transaction the command is -/
  part : SpiPart
  /-- byte 1, which is not read -/
  unread : Byte
  /-- bytes 2 and 3, the cause set -/
  causes : Word16
  /-- bytes clocked in after the fourth, which are ignored -/
  extra : Nat
deriving DecidableEq, Repr

/-- The pair seen from a falling edge on: the lengths, in sample clocks, of its low and high spells in turn, the
first one low. After the last spell the pair is at mark. -/
abbrev Wave := List Nat

/-- The commands, in the order of spec/opcode_table.json. -/
inductive Instr where
  | fullReset
  | writeRequest (part : SpiPart) (record : Vector Byte 32) (extra : Nat)
  | readCompletion (part : SpiPart) (extra : Nat)
  | readStatus (part : SpiPart) (extra : Nat)
  | spiUnknownOperation (op : Byte) (following : Nat)
  | csnRiseEarly (op : Option Byte) (following : Nat)
  | arm (c : Control)
  | ack (c : Control)
  | soft (c : Control)
  | restartQueue (c : Control)
  | flushQueue (c : Control)
  | fieldReset (c : Control)
  | fieldResetRecordOperation (part : Part)
  | requestTaking
  | create (part : Part)
  | find (part : Part)
  | read (part : Part)
  | amend (part : Part)
  | setPhase (part : Part)
  | cancelMove (part : Part)
  | hold (part : Part)
  | release (part : Part)
  | clearFault (part : Part)
  | clearNotices (part : Part)
  | contact (part : Part)
  | retire (part : Part)
  | configureFeeder (part : Part)
  | readSheet
  | stageEntry (part : Part)
  | startBatch (part : Part)
  | cancelBatch (part : Part)
  | readBatch
  | configureLine
  | lineStart
  | lineStop
  | readLine
  | configureRate
  | configureSurvey
  | setTime
  | configureAttention
  | timeCountAdvance
  | dayRollover (part : Part)
  | reportDeadlineReached (i : RecIdx)
  | deadlineExpiry (part : Part) (i : RecIdx)
  | coolDownPassed (i : RecIdx)
  | huntDueReached (i : RecIdx)
  | confirmDelayExpiry (k : SlotNo)
  | persistenceTimerExpiry (f : FeederNo)
  | balancerSelection (part : Part) (f : FeederNo)
  | settleExpiry
  | waveExamination (part : Part)
  | surveyExpiry
  | throttleExpiry
  | linePick (l : LineNo)
  | admission (part : Part) (l : LineNo)
  | pickLookup (part : Part) (l : LineNo)
  | frameSent (l : LineNo)
  | frameReceived (l : LineNo) (wait : Nat) (wave : Wave)
  | frameGapTimeout (l : LineNo)
  | turnaroundTimeout (l : LineNo)
  | huntStartBitMeasured (l : LineNo) (wait : Nat) (period : Nat)
  | startBitUnclassified (l : LineNo) (wait : Nat)
  | presentProcessing (part : Part)
  | reportProcessing (part : Part)
  | acceptProcessing (part : Part)
  | declineProcessing (part : Part)
  | outcomeProcessing (part : Part)
  | slotFreeService (part : Part)
  | checkExhaustionEnd (part : Part) (k : SlotNo)
  | lineStopLostEnd (part : Part) (k : SlotNo)
  | huntFailureBookkeeping (part : Part) (i : RecIdx)
  | uncountedHuntEnd (part : Part) (i : RecIdx)
  | characterReceived (l : LineNo) (wait : Nat) (wave : Wave)
  | unknownControlOperation (code : Byte) (c : Control)
deriving DecidableEq, Repr

end Sys2Proof
end

