-- ==== Sys2Proof/Config.lean ====
section
/-! DEFINITION. The free values: what the spec leaves open and the part nevertheless produces. Each is an opaque
constant, so nothing can be proved about the value it takes. -/
namespace Sys2Proof.Config

/-- Free value (log 8). Where a request's own completion stands among the completions of parked requests that the
same operation makes READY: R23 defines no order among the results an operation hands on. The argument is the
counter `State.free`, the result the number of parked completions posted before it. -/
opaque ownPosition : Nat → Nat

/-- Free value (log 9). A byte on SDO during a transaction that is ignored because RESETn was low when it began: R181
says that it is ignored and not what it clocks out. The arguments are the counter `State.free` and the number of the
byte. -/
opaque ignoredByte : Nat → Nat → Byte

end Sys2Proof.Config
end

