-- ==== Sys2Proof/Machine/State.lean ====
section
/-! DEFINITION. The state of the part, block by block (spec/00_scope.md, Block overview), as plain data, and its
value after a full reset. -/
namespace Sys2Proof.Machine
open Sys2Proof

/-! ### Names -/

/-- A known phase. Where a phase may be UNKNOWN the type is `Option Phase` and `none` is UNKNOWN. -/
inductive Phase where
  | A | B | C
deriving DecidableEq, Repr

/-- One value for each phase. -/
structure ThreeOf (α : Type) where
  a : α
  b : α
  c : α
deriving DecidableEq, Repr

/-- A set of phases (R4, allowed set). -/
abbrev PhaseSet := ThreeOf Bool

/-- The kind of a connection (R4). -/
inductive Kind where
  | single | three
deriving DecidableEq, Repr

/-- The origin of a target or a move (R4, R52). -/
inductive Origin where
  | host | balancer | batch | restore
deriving DecidableEq, Repr

/-- The lifecycle state of a record (R7 to R11). -/
inductive RecState where
  | vacant | provisional | active | retiring
deriving DecidableEq, Repr

/-- The state of a move (R53). -/
inductive MoveState where
  | queued | offered | switching | checking
deriving DecidableEq, Repr

/-- The result of a move (R74). -/
inductive MoveResult where
  | done | already | declined | noAnswer | restoredBack | unsupplied | lost | aborted | budgetSpent
deriving DecidableEq, Repr

/-- The result of a hunt (R4, last hunt result). -/
inductive HuntResult where
  | ok | silent | endOfTable | badFrame | kindMismatch
deriving DecidableEq, Repr

/-- The status of a completion (section 9.6). -/
inductive Status where
  | ok | notFound | staleHandle | tableFull | duplicateKey | duplicateAddress | feederUnconfigured | notActive
  | notMovable | phaseNotAllowed | budgetSpent | held | faulted | busy | tooLate | batchBusy | batchEmpty
  | listFull | duplicateEntry | recordsPresent | badTable | lineRunning | lineStopped | huntFailed | moveFailed
  | superseded | cancelled | aborted | flushed | malformed
deriving DecidableEq, Repr

/-- The name the host uses for a record (R2). -/
structure Handle where
  index : RecIdx
  generation : Byte
deriving DecidableEq, Repr

/-! ### The Connection Table (R1, R4) -/

/-- The phase a record is to be moved to. -/
structure Target where
  phase : Phase
  priority : Nat
  origin : Origin
deriving DecidableEq, Repr

/-- The fault field of a record (R19). -/
structure FaultField where
  code : Byte
  time : Word32
  second : Bool
deriving DecidableEq, Repr

/-- The notices of a record (R22). -/
structure Notices where
  restarted : Bool
  drifted : Bool
  noContact : Bool
  moveFailed : Bool
deriving DecidableEq, Repr

/-- The last move result of a record (R73). -/
structure LastMove where
  result : MoveResult
  origin : Origin
  time : Word32
deriving DecidableEq, Repr

/-- One record of the Connection Table, field for field the table of R4. Currents are in 0.1 A; a SINGLE record's
one current stands in `a` and the other two are 0. Intervals are in seconds, due values on the elapsed count. -/
structure Record where
  generation : Byte
  state : RecState
  serviceKey : Word32
  feeder : FeederNo
  unitAddress : Word16
  kind : Kind
  allowed : PhaseSet
  phase : Option Phase
  current : ThreeOf Int
  lastReport : Option Word32
  deadlineInterval : Nat
  deadlineDue : Option Nat
  stale : Bool
  target : Option Target
  move : Option SlotNo
  hold : Option Byte
  fault : Option FaultField
  notices : Notices
  lastMove : Option LastMove
  rateClass : Option RateNo
  huntFailures : Nat
  huntDue : Option Nat
  lastHunt : Option HuntResult
  opCount : Word16
  dailyUsed : Nat
  dailyBudget : Nat
  coolDown : Option Nat
  tag : Byte
  autoRestore : Bool
deriving DecidableEq, Repr

/-- The column "In VACANT" of R4, with the generation kept. -/
def Record.vacant (generation : Byte) : Record where
  generation := generation
  state := .vacant
  serviceKey := 0
  feeder := 0
  unitAddress := 0
  kind := .single
  allowed := ⟨false, false, false⟩
  phase := none
  current := ⟨0, 0, 0⟩
  lastReport := none
  deadlineInterval := 300
  deadlineDue := none
  stale := false
  target := none
  move := none
  hold := none
  fault := none
  notices := ⟨false, false, false, false⟩
  lastMove := none
  rateClass := none
  huntFailures := 0
  huntDue := none
  lastHunt := none
  opCount := 0
  dailyUsed := 0
  dailyBudget := 4
  coolDown := none
  tag := 0
  autoRestore := true

/-! ### The field lines (R119) -/

/-- The state of a line (R119). -/
inductive LineState where
  | stopped | running | suspended
deriving DecidableEq, Repr

/-- What a RUNNING line is doing (R119). -/
inductive Activity where
  | idle | picking | sending | listening
deriving DecidableEq, Repr

/-- The four kinds of transaction (section 6.4). -/
inductive TxnKind where
  | summon | poll | move | check
deriving DecidableEq, Repr

/-- A transaction and its binding (R3, R119). `slot` and `sequence` are those of a MOVE or CHECK; a SUMMON or POLL
has no slot and sequence 0. -/
structure Txn where
  kind : TxnKind
  index : RecIdx
  generation : Byte
  address : Word16
  bitLength : Nat
  slot : Option SlotNo
  sequence : Byte
deriving DecidableEq, Repr

/-- The turnaround timer, in sample clocks left (R131, R144). -/
inductive Timer where
  | stopped
  | running (left : Nat)
  | held (left : Nat)
deriving DecidableEq, Repr

/-- A valid answer in the receive hold (R135): its frame's fields, the binding of the transaction it answered, the
class of a PRESENT's start bit (R146) and the moment it entered. -/
structure Held where
  function : Byte
  sequence : Byte
  payload : List Byte
  binding : Txn
  rateClass : Option RateNo
  entered : Nat
deriving DecidableEq, Repr

/-- What a line keeps of a move in flight on it (R119, R138). -/
structure MoveBinding where
  slot : SlotNo
  address : Word16
  rateClass : RateNo
deriving DecidableEq, Repr

/-- A frame being assembled (R129): the unescaped bytes so far, whether the last character was CBH, and whether a
framing error or a bad escape has been seen. -/
structure Assembly where
  bytes : List Byte
  escape : Bool
  bad : Bool
deriving DecidableEq, Repr

/-- What the receiver does with the next falling edge: measure it (R144), sample the classified lead character
(R146), or sample a character (R126). -/
inductive RxMode where
  | measuring
  | lead
  | reading
deriving DecidableEq, Repr

/-- The receiver of a line: its mode, the bit length it reads at, the class a hunt's start bit was given, the frame
being assembled, whether characters have come since the turnaround timer last started, and the sample clocks that
have passed since the last character's end. -/
structure Receiver where
  mode : RxMode
  bitLength : Nat
  rateClass : Option RateNo
  frame : Option Assembly
  busy : Bool
  gap : Nat
deriving DecidableEq, Repr

/-- A receiver with nothing received. -/
def Receiver.atRest : Receiver := ⟨.reading, 0, none, none, false, 0⟩

/-- One Line Controller (R119, R123, R143). The turnaround timeout is in units of 10 ms, the confirm delay in units
of 0.1 s, the hunt interval in seconds. `pickWanted` says an event of R136 has come and its pick is still to be
made (log 7). `window` is the full length of the open answer window in sample clocks. -/
structure Line where
  state : LineState
  activity : Activity
  pickAgain : Bool
  pickWanted : Bool
  run : Word32
  out : Option Txn
  attemptsLeft : Nat
  timer : Timer
  window : Nat
  silence : Nat
  receiveHold : List Held
  bindings : List MoveBinding
  round : Option Nat
  retryLimit : Nat
  turnaround : Nat
  confirmDelay : Nat
  silenceLimit : Nat
  huntInterval : Nat
  reason : Option HuntResult
  tx : List Byte
  rx : Receiver
deriving DecidableEq, Repr

/-- The values of R119 after a full reset. -/
def Line.reset : Line where
  state := .stopped
  activity := .idle
  pickAgain := false
  pickWanted := false
  run := 0
  out := none
  attemptsLeft := 0
  timer := .stopped
  window := 0
  silence := 0
  receiveHold := []
  bindings := []
  round := none
  retryLimit := 2
  turnaround := 25
  confirmDelay := 10
  silenceLimit := 16
  huntInterval := 60
  reason := none
  tx := []
  rx := .atRest

/-! ### The Move Scheduler (R52 to R57) -/

/-- Who enqueued a move (R52). -/
inductive EnqueuedBy where
  | balancer
  | batch (entry : Nat)
deriving DecidableEq, Repr

/-- An occupied move slot (R52), with its confirm delay (R65) and the count its CHECK fell due at (R68, R69). -/
structure Move where
  index : RecIdx
  generation : Byte
  origin : Origin
  enqueuedBy : Option EnqueuedBy
  priority : Nat
  toPhase : Phase
  fromPhase : Option Phase
  state : MoveState
  sequence : Option Byte
  resolve : Bool
  attemptsLeft : Nat
  inProgressSeen : Nat
  entryOrder : Nat
  closed : Bool
  confirmDue : Option Nat
  checkDue : Option Nat
deriving DecidableEq, Repr

/-- An entry of the waiting list (R57). -/
structure WaitingEntry where
  index : RecIdx
  priority : Nat
deriving DecidableEq, Repr

/-- The Move Scheduler. -/
structure Scheduler where
  slots : Vector (Option Move) 32
  inFlight : Vector Nat 8
  lineSequence : Vector Byte 2
  entryCount : Nat
  waitingList : List WaitingEntry
deriving DecidableEq, Repr

/-! ### The Balance Unit (R85, R88, R92) -/

/-- The state of a balancer (R92). -/
inductive BalState where
  | off | calm | watching | acting | resting
deriving DecidableEq, Repr

/-- One feeder: settings (R85), tally (R88) and balancer (R92). The threshold and the sums are in 0.1 A, the
cool-down and the persistence in seconds, the persistence timer is a due value. -/
structure Feeder where
  configured : Bool
  line : LineNo
  inFlightLimit : Nat
  coolDown : Nat
  threshold : Nat
  persistence : Nat
  enable : Bool
  priority : Nat
  sum : ThreeOf Int
  count : ThreeOf Nat
  excluded : Nat
  state : BalState
  timer : Option Nat
  selectionPending : Bool
  lastHandle : Option Handle
deriving DecidableEq, Repr

/-- The values of R85, R88 and R92 after a full reset. -/
def Feeder.reset : Feeder where
  configured := false
  line := 0
  inFlightLimit := 1
  coolDown := 900
  threshold := 200
  persistence := 120
  enable := false
  priority := 2
  sum := ⟨0, 0, 0⟩
  count := ⟨0, 0, 0⟩
  excluded := 0
  state := .off
  timer := none
  selectionPending := false
  lastHandle := none

/-! ### The Batch Engine (R103, R104) -/

/-- The result of a staging-list entry (R103). -/
inductive EntryResult where
  | pending | inMove | done | already
  | failed (r : MoveResult)
  | refused (st : Status)
  | flushed | aborted
deriving DecidableEq, Repr

/-- An entry of the staging list (R103). -/
structure Entry where
  handle : Handle
  toPhase : Phase
  result : EntryResult
deriving DecidableEq, Repr

/-- The state of the batch (R104). -/
inductive BatchState where
  | empty | staging | running | settling | cancelling | ended
deriving DecidableEq, Repr

/-- The Batch Engine (R103, R104). The settle is in seconds, the settle timer is a due value. -/
structure Batch where
  entries : List Entry
  state : BatchState
  waveSize : Option Nat
  settle : Option Nat
  stopOnFailure : Bool
  priority : Nat
  waveNumber : Nat
  waveFirst : Option Nat
  waveLast : Option Nat
  next : Option Nat
  examinationPending : Bool
  stalled : Bool
  settleDue : Option Nat
  startParked : Bool
deriving DecidableEq, Repr

/-- The values of R103 and R104 after a full reset. -/
def Batch.reset : Batch where
  entries := []
  state := .empty
  waveSize := none
  settle := none
  stopOnFailure := false
  priority := 0
  waveNumber := 0
  waveFirst := none
  waveLast := none
  next := none
  examinationPending := false
  stalled := false
  settleDue := none
  startParked := false

/-! ### The Record Store's service (R23, R24) -/

/-- A claim on the Record Store other than a held answer (R23). A move end without an answer carries the slot, the
record and the sequence number (R77) and whether it came of exhausted CHECK attempts or of a line's halt. -/
inductive Claim where
  | request
  | admission (l : LineNo) (run : Word32)
  | pickLookup (l : LineNo) (run : Word32)
  | checkExhausted (k : SlotNo) (h : Handle) (sequence : Byte)
  | lineStopLost (k : SlotNo) (h : Handle) (sequence : Byte)
  | slotFree
  | huntFailure (h : Handle) (reason : HuntResult)
  | uncountedHunt (h : Handle)
  | deadline (h : Handle) (due : Nat)
  | dayRollover
  | selection (f : FeederNo)
  | wave
  | fieldReset
deriving DecidableEq, Repr

/-- A waiting claim and the moment it arose (R24). -/
structure Waiting where
  claim : Claim
  arose : Nat
deriving DecidableEq, Repr

/-- What the operation in progress serves. -/
inductive Work where
  | answer (held : Held)
  | claim (c : Claim)
deriving DecidableEq, Repr

/-- The operation in progress: what it serves, the Time Count when it was served (R154), the result of the test
made at its serving (R93, R107, R138), the entry a wave examination begins at, the batch state when it was served
(R104), whether a field reset has been taken since (R98, R118), and the elapsed count and the two lines' states when it
was served (R35, R151). -/
structure Service where
  work : Work
  stamp : Word32
  passed : Bool
  next : Option Nat
  batch : BatchState
  overtaken : Bool
  elapsed : Nat
  lines : Vector LineState 2
deriving DecidableEq, Repr

/-- The Record Store. -/
@[ext]
structure Store where
  table : Vector Record 512
  claims : List Waiting
  inProgress : Option Service
deriving DecidableEq, Repr

/-! ### The Request Port and the Request Engine (R167 to R181) -/

/-- A 32-byte request record as written (R168). -/
abbrev RawRequest := Vector Byte 32

/-- A completion record (R179). The more indication is set at reading and is not stored. -/
structure Completion where
  kind : Byte
  status : Status
  parked : Bool
  cookie : Word32
  result : Vector Byte 32
deriving DecidableEq, Repr

/-- The request in service and the parked entry reserved for it, where it may park (R172). -/
structure InService where
  raw : RawRequest
  entry : Option ParkNo
deriving DecidableEq, Repr

/-- What a parked request waits on (R27, R106, R177). -/
inductive WaitsOn where
  | vacant | targetRemoval | huntEnd | batchEnd
deriving DecidableEq, Repr

/-- An occupied parked entry (R177). `result` and `slot` are those a SET PHASE took when it was accepted (R41).
`ready` holds the formed completion once the entry is READY; `none` is WAITING. -/
structure Parked where
  kind : Byte
  cookie : Word32
  quiet : Bool
  handle : Option Handle
  waitsOn : WaitsOn
  result : Byte
  slot : Byte
  ready : Option Completion
deriving DecidableEq, Repr

/-- The Request Engine. -/
@[ext]
structure Engine where
  queue : List RawRequest
  stopped : Bool
  inService : Option InService
  previous : Status
  parked : Vector (Option Parked) 8
  readyOrder : List ParkNo
  completions : List Completion
deriving DecidableEq, Repr

/-- The SPI transaction in progress: its operation byte once decoded, the port summary taken when CSn fell, the bytes
fixed for sending, whether a READ COMPLETION is sending the head of the completion queue (R167, R169, R170), and
whether it began while RESETn was low and is ignored to its end (R181). -/
structure SpiTxn where
  op : Option Byte
  summary : Byte
  out : List Byte
  head : Bool
  ignored : Bool
deriving DecidableEq, Repr

/-- The Request Port: the transaction in progress and the bytes clocked out on SDO by the last one. -/
structure Port where
  txn : Option SpiTxn
  sdo : List Byte
deriving DecidableEq, Repr

/-! ### Rate Table, Survey Unit, Time Base, Attention Unit -/

/-- An entry of the Rate Table (R141). -/
structure RateEntry where
  maxStart : Word16
  bitLength : Word16
deriving DecidableEq, Repr

/-- The Survey Unit (R158): the period in seconds, the timer a due value. -/
structure Survey where
  enable : Bool
  period : Nat
  timer : Option Nat
deriving DecidableEq, Repr

/-- An expiry on the elapsed count that is an event for a line's pick and removes no due value (R61, R136). -/
inductive Reached where
  | coolDown (i : RecIdx)
  | huntDue (i : RecIdx)
deriving DecidableEq, Repr

/-- The Time Base (R154, R155) and the expiries reached and not yet told. -/
structure TimeBase where
  count : Word32
  elapsed : Nat
  reached : List Reached
deriving DecidableEq, Repr

/-- The Attention Unit (R182 to R188). Cause sets are laid out as in 11.1; `raised` is the attention state RAISED;
the throttle is in units of 0.1 s and its timer a due value. `falls` counts the falling edges ATTNn has shown since the
full reset (R184, R186, log 42). -/
structure Attention where
  pendingSet : Word16
  enabledSet : Word16
  raised : Bool
  throttle : Nat
  timer : Option Nat
  falls : Nat
deriving DecidableEq, Repr

/-! ### The whole part -/

/-- The state of the part. `pending` is the queue of commands, `moment` counts the moments at which claims and held
answers arise (log 4), `free` is the counter the free values are taken at (log 8, log 9). -/
@[ext]
structure State where
  pending : List Instr
  moment : Nat
  free : Nat
  port : Port
  engine : Engine
  store : Store
  sched : Scheduler
  feeders : Vector Feeder 8
  batch : Batch
  lines : Vector Line 2
  rate : Vector RateEntry 8
  survey : Survey
  time : TimeBase
  attention : Attention
deriving DecidableEq, Repr

/-- The reasons the part stops with a fault: none, the spec describes no stop. Safe: nothing raises one. -/
inductive Fault where
deriving DecidableEq, Repr

/-- The reasons the model gives no meaning. -/
inductive Refusal where
  /-- Raised by exec for a command that has no meaning yet; no arm raises it. Safe: the model stops. -/
  | notModelled (mnemonic : String)
deriving DecidableEq, Repr

/-- The defaults of R141: (maximum start length, bit length) of entries 0 to 7. -/
def rateDefaults : Vector RateEntry 8 :=
  #v[⟨36, 35⟩, ⟨54, 52⟩, ⟨109, 104⟩, ⟨218, 208⟩, ⟨437, 417⟩, ⟨875, 833⟩, ⟨1750, 1667⟩, ⟨3500, 3333⟩]

/-- The part right after a full reset (R1, R25, R52 to R57, R85, R88, R92, R103, R104, R119, R141, R154, R155,
R158, R181, R188). -/
def State.reset : State where
  pending := []
  moment := 0
  free := 0
  port := ⟨none, []⟩
  engine :=
    { queue := [], stopped := false, inService := none, previous := .ok,
      parked := Vector.replicate 8 none, readyOrder := [], completions := [] }
  store := { table := Vector.replicate 512 (Record.vacant 0), claims := [], inProgress := none }
  sched :=
    { slots := Vector.replicate 32 none, inFlight := Vector.replicate 8 0,
      lineSequence := Vector.replicate 2 0, entryCount := 0, waitingList := [] }
  feeders := Vector.replicate 8 Feeder.reset
  batch := Batch.reset
  lines := Vector.replicate 2 Line.reset
  rate := rateDefaults
  survey := { enable := false, period := 60, timer := none }
  time := { count := 0, elapsed := 0, reached := [] }
  attention := { pendingSet := 0, enabledSet := 0x0F3F, raised := false, throttle := 10, timer := none, falls := 0 }

end Sys2Proof.Machine
end

