-- ==== Sys2Proof/WellFormed.lean ====
section
/-! DEFINITION. The well-formed commands: those whose operands describe the event their row names. Most bounds are
in the operands' types; the checks here are the ones left. An ill-formed command is no event and has no effect. -/
namespace Sys2Proof

/-- The number of bytes that follow an operation byte (R167), or none for an undefined operation. -/
def spiLength (op : Byte) : Option Nat :=
  if op = 1 then some 32
  else if op = 2 then some 40
  else if op = 3 then some 16
  else if op = 4 then some 4
  else none

/-- The control operation codes that name one of the six operations (11.2). -/
def knownControl (code : Byte) : Bool :=
  decide (1 ≤ code.toNat) && decide (code.toNat ≤ 6)

/-- A waveform has a first low spell, and every spell lasts at least one sample clock. -/
def waveOk (w : Wave) : Bool :=
  !w.isEmpty && w.all (fun n => decide (0 < n))

/-- A transaction cut short: the operation byte itself, or fewer bytes than its operation takes (R168 to R171). -/
def cutShort (op : Option Byte) (following : Nat) : Bool :=
  match op with
  | none => decide (following = 0)
  | some b =>
    match spiLength b with
    | some n => decide (following < n)
    | none => false

/-- The check each command's operands must pass. -/
def Instr.wellFormed : Instr → Bool
  | .spiUnknownOperation op _ => (spiLength op).isNone
  | .csnRiseEarly op following => cutShort op following
  | .unknownControlOperation code _ => !knownControl code
  | .frameReceived _ _ wave => waveOk wave
  | .characterReceived _ _ wave => waveOk wave
  | .huntStartBitMeasured _ _ period => decide (0 < period)
  | .fullReset | .writeRequest _ _ _ | .readCompletion _ _ | .readStatus _ _ | .arm _ | .ack _ | .soft _
  | .restartQueue _ | .flushQueue _ | .fieldReset _ | .fieldResetRecordOperation _ | .requestTaking | .create _
  | .find _ | .read _ | .amend _ | .setPhase _ | .cancelMove _ | .hold _ | .release _ | .clearFault _
  | .clearNotices _ | .contact _ | .retire _ | .configureFeeder _ | .readSheet | .stageEntry _ | .startBatch _
  | .cancelBatch _ | .readBatch | .configureLine | .lineStart | .lineStop | .readLine | .configureRate
  | .configureSurvey | .setTime | .configureAttention | .timeCountAdvance | .dayRollover _
  | .reportDeadlineReached _ | .deadlineExpiry _ _ | .coolDownPassed _ | .huntDueReached _
  | .confirmDelayExpiry _ | .persistenceTimerExpiry _ | .balancerSelection _ _ | .settleExpiry
  | .waveExamination _ | .surveyExpiry | .throttleExpiry | .linePick _ | .admission _ _ | .pickLookup _ _
  | .frameSent _ | .frameGapTimeout _ | .turnaroundTimeout _ | .startBitUnclassified _ _ | .presentProcessing _
  | .reportProcessing _ | .acceptProcessing _ | .declineProcessing _ | .outcomeProcessing _ | .slotFreeService _
  | .checkExhaustionEnd _ _ | .lineStopLostEnd _ _ | .huntFailureBookkeeping _ _ | .uncountedHuntEnd _ _ => true

end Sys2Proof
end

