-- ==== Sys2Proof/Machine/Operands.lean ====
section
/-! DEFINITION. Operand forms: byte order and codes (spec/11_formats.md, R189), the fields of a request record and the
malformation tests (R173), the fields of an answer (R164, 11.5), frames with their CRC and escaping (R127 to R130),
and the sampling of characters (R126, R146). -/
namespace Sys2Proof.Machine
open Sys2Proof

/-! ### Byte order (R189) -/

/-- A byte of a number's low eight bits. -/
def byteOf (n : Nat) : Byte := BitVec.ofNat 8 n

/-- Two bytes, high byte first. -/
def be16 (n : Nat) : List Byte := [byteOf (n / 256), byteOf n]

/-- Three bytes, high byte first. -/
def be24 (n : Nat) : List Byte := byteOf (n / 65536) :: be16 n

/-- Four bytes, high byte first. -/
def be32 (n : Nat) : List Byte := be16 (n / 65536) ++ be16 n

/-- A signed value in two's complement on `w` bits. -/
def twos (w : Nat) (i : Int) : Nat := (BitVec.ofInt w i).toNat

/-- The number a list of bytes holds, high byte first. -/
def ofBytes (l : List Byte) : Nat := l.foldl (fun n b => n * 256 + b.toNat) 0

/-- A list of bytes cut or filled with 0 to a length. -/
def padTo (n : Nat) (l : List Byte) : List Byte := (l ++ List.replicate n 0).take n

theorem padTo_length (n : Nat) (l : List Byte) : (padTo n l).length = n := by
  simp [padTo, List.length_take]

/-- A 32-byte area from its leading bytes: every byte a layout does not assign is 0 (R189). -/
def area (l : List Byte) : Vector Byte 32 := ⟨⟨padTo 32 l⟩, padTo_length 32 l⟩

/-- On is sent as 1, off as 0 (R189). -/
def boolByte (b : Bool) : Byte := if b then 1 else 0

/-- An on/off parameter is off when the byte is 0 and on for any other value (R189). -/
def onOff (b : Byte) : Bool := b != 0

/-- Bit `k` of a byte. -/
def bitOf (b : Byte) (k : Nat) : Bool := b.getLsbD k

/-- A byte with the given bits, bit 0 first. -/
def bitsByte (l : List Bool) : Byte := byteOf (l.foldr (fun b n => (if b then 1 else 0) + 2 * n) 0)

/-! ### Codes (11.1) -/

/-- The phase a code names; UNKNOWN for 0 and for any code above 3 (R164). -/
def phaseOf (code : Nat) : Option Phase :=
  if code = 1 then some .A else if code = 2 then some .B else if code = 3 then some .C else none

/-- The code of a known phase. -/
def Phase.code : Phase → Nat
  | .A => 1 | .B => 2 | .C => 3

/-- The code of a phase that may be UNKNOWN. -/
def phaseCode : Option Phase → Nat
  | none => 0
  | some p => p.code

/-- The code of an origin. -/
def Origin.code : Origin → Nat
  | .host => 0 | .balancer => 1 | .batch => 2 | .restore => 3

/-- The code of a hunt result. -/
def HuntResult.code : HuntResult → Nat
  | .ok => 1 | .silent => 2 | .endOfTable => 3 | .badFrame => 4 | .kindMismatch => 5

/-- The code of a move result. -/
def MoveResult.code : MoveResult → Nat
  | .done => 1 | .already => 2 | .declined => 3 | .noAnswer => 4 | .restoredBack => 5
  | .unsupplied => 6 | .lost => 7 | .aborted => 8 | .budgetSpent => 9

/-- The code of a record state. -/
def RecState.code : RecState → Nat
  | .vacant => 0 | .provisional => 1 | .active => 2 | .retiring => 3

/-- The code of a line state. -/
def LineState.code : LineState → Nat
  | .stopped => 0 | .running => 1 | .suspended => 2

/-- The code of an activity. -/
def Activity.code : Activity → Nat
  | .idle => 0 | .picking => 1 | .sending => 2 | .listening => 3

/-- The code of a balancer state. -/
def BalState.code : BalState → Nat
  | .off => 0 | .calm => 1 | .watching => 2 | .acting => 3 | .resting => 4

/-- The code of a batch state. -/
def BatchState.code : BatchState → Nat
  | .empty => 0 | .staging => 1 | .running => 2 | .settling => 3 | .cancelling => 4 | .ended => 5

/-- The code of a status (11.1, Status codes). -/
def Status.code : Status → Nat
  | .ok => 0x00 | .notFound => 0x01 | .staleHandle => 0x02 | .tableFull => 0x03 | .duplicateKey => 0x04
  | .duplicateAddress => 0x05 | .feederUnconfigured => 0x06 | .notActive => 0x07 | .notMovable => 0x08
  | .phaseNotAllowed => 0x09 | .budgetSpent => 0x0A | .held => 0x0B | .faulted => 0x0C | .busy => 0x0D
  | .tooLate => 0x0E | .batchBusy => 0x0F | .batchEmpty => 0x10 | .listFull => 0x11 | .duplicateEntry => 0x12
  | .recordsPresent => 0x13 | .badTable => 0x14 | .lineRunning => 0x15 | .lineStopped => 0x16
  | .huntFailed => 0x17 | .moveFailed => 0x18 | .superseded => 0x19 | .cancelled => 0x1A | .aborted => 0x1B
  | .flushed => 0x1C | .malformed => 0x1D

/-- The record request results of 11.1. -/
inductive ReqResult where
  | none | queued | follows | held | waiting | removed | aborted | inFlight | vacant | retiring
deriving DecidableEq, Repr

/-- The code of a record request result. -/
def ReqResult.code : ReqResult → Nat
  | .none => 0 | .queued => 1 | .follows => 2 | .held => 3 | .waiting => 4 | .removed => 5
  | .aborted => 6 | .inFlight => 7 | .vacant => 8 | .retiring => 9

/-- The result code of a staging-list entry (11.4). -/
def EntryResult.code : EntryResult → Nat
  | .pending => 1 | .inMove => 2 | .done => 3 | .already => 4 | .flushed => 5 | .aborted => 6
  | .failed r =>
    match r with
    | .declined => 8 | .noAnswer => 9 | .restoredBack => 10 | .unsupplied => 11 | .lost => 12
    | .aborted => 13 | .budgetSpent => 14 | .done => 3 | .already => 4
  | .refused st =>
    match st with
    | .staleHandle => 16 | .notActive => 17 | .notMovable => 18 | .held => 19 | .faulted => 20
    | .busy => 21 | .phaseNotAllowed => 22 | .budgetSpent => 23
    | _ => 0

/-! ### Values for each phase -/

/-- The value kept for a phase. -/
def ThreeOf.get {α : Type} (t : ThreeOf α) : Phase → α
  | .A => t.a | .B => t.b | .C => t.c

/-- A value changed for one phase. -/
def ThreeOf.update {α : Type} (t : ThreeOf α) (p : Phase) (g : α → α) : ThreeOf α :=
  match p with
  | .A => { t with a := g t.a }
  | .B => { t with b := g t.b }
  | .C => { t with c := g t.c }

/-- An allowed set from its byte: bit 0 for A, bit 1 for B, bit 2 for C (11.1). -/
def phaseSetOf (b : Byte) : PhaseSet := ⟨bitOf b 0, bitOf b 1, bitOf b 2⟩

/-- The byte of an allowed set. -/
def phaseSetByte (s : PhaseSet) : Byte := bitsByte [s.a, s.b, s.c]

/-- Whether a set of phases is empty. -/
def phaseSetEmpty (s : PhaseSet) : Bool := !(s.a || s.b || s.c)

/-- The byte of a notice set (11.1). -/
def noticesByte (n : Notices) : Byte := bitsByte [n.restarted, n.drifted, n.noContact, n.moveFailed]

/-- The notices left when those a byte names are removed (R48). -/
def Notices.without (n : Notices) (b : Byte) : Notices :=
  ⟨n.restarted && !bitOf b 0, n.drifted && !bitOf b 1, n.noContact && !bitOf b 2, n.moveFailed && !bitOf b 3⟩

/-- The three bytes of a handle (R189). -/
def handleBytes (h : Handle) : List Byte := be16 h.index.val ++ [h.generation]

/-! ### Request records (11.3) -/

/-- The 26 request kinds. -/
inductive ReqKind where
  | create | find | read | amend | setPhase | cancelMove | hold | release | clearFault | clearNotices | contact
  | retire | configureFeeder | readSheet | stageEntry | startBatch | cancelBatch | readBatch | configureLine
  | lineStart | lineStop | readLine | configureRate | configureSurvey | setTime | configureAttention
deriving DecidableEq, Repr

/-- The kind codes (11.1, Request kinds). -/
def ReqKind.code : ReqKind → Byte
  | .create => 0x01 | .find => 0x02 | .read => 0x03 | .amend => 0x04 | .setPhase => 0x05 | .cancelMove => 0x06
  | .hold => 0x07 | .release => 0x08 | .clearFault => 0x09 | .clearNotices => 0x0A | .contact => 0x0B
  | .retire => 0x0C | .configureFeeder => 0x10 | .readSheet => 0x11 | .stageEntry => 0x18 | .startBatch => 0x19
  | .cancelBatch => 0x1A | .readBatch => 0x1B | .configureLine => 0x20 | .lineStart => 0x21 | .lineStop => 0x22
  | .readLine => 0x23 | .configureRate => 0x24 | .configureSurvey => 0x28 | .setTime => 0x29
  | .configureAttention => 0x2A

/-- All the kinds. -/
def ReqKind.all : List ReqKind :=
  [.create, .find, .read, .amend, .setPhase, .cancelMove, .hold, .release, .clearFault, .clearNotices, .contact,
   .retire, .configureFeeder, .readSheet, .stageEntry, .startBatch, .cancelBatch, .readBatch, .configureLine,
   .lineStart, .lineStop, .readLine, .configureRate, .configureSurvey, .setTime, .configureAttention]

/-- The kind a code names. -/
def ReqKind.ofCode (b : Byte) : Option ReqKind := ReqKind.all.find? (fun k => k.code == b)

/-- The kinds that name a record by handle. -/
def ReqKind.namesRecord : ReqKind → Bool
  | .read | .amend | .setPhase | .cancelMove | .hold | .release | .clearFault | .clearNotices | .contact | .retire
  | .stageEntry => true
  | .create | .find | .configureFeeder | .readSheet | .startBatch | .cancelBatch | .readBatch | .configureLine
  | .lineStart | .lineStop | .readLine | .configureRate | .configureSurvey | .setTime | .configureAttention => false

/-- The kinds served by the Record Store (R172, table "Where each request kind is served"). -/
def ReqKind.atStore : ReqKind → Bool
  | .create | .find | .read | .amend | .setPhase | .cancelMove | .hold | .release | .clearFault | .clearNotices
  | .contact | .retire | .configureFeeder | .stageEntry | .startBatch | .cancelBatch => true
  | .readSheet | .readBatch | .configureLine | .lineStart | .lineStop | .readLine | .configureRate
  | .configureSurvey | .setTime | .configureAttention => false

/-- Byte `k` of a request record. -/
def rawByte (r : RawRequest) (k : Nat) : Byte := r.toList.getD k 0

/-- The number in `n` bytes of a request record from byte `k` on. -/
def rawNat (r : RawRequest) (k n : Nat) : Nat := ofBytes ((r.toList.drop k).take n)

/-- Byte `k` of the parameter area. -/
def param (r : RawRequest) (k : Nat) : Byte := rawByte r (6 + k)

/-- The number in `n` bytes of the parameter area from offset `k` on. -/
def paramNat (r : RawRequest) (k n : Nat) : Nat := rawNat r (6 + k) n

/-- The kind code as written. -/
def rawKind (r : RawRequest) : Byte := rawByte r 0

/-- The kind, where the code names one. -/
def reqKind (r : RawRequest) : Option ReqKind := ReqKind.ofCode (rawKind r)

/-- The CHAIN flag. -/
def reqChain (r : RawRequest) : Bool := bitOf (rawByte r 1) 0
/-- The QUIET flag. -/
def reqQuiet (r : RawRequest) : Bool := bitOf (rawByte r 1) 1
/-- The WAIT flag. -/
def reqWait (r : RawRequest) : Bool := bitOf (rawByte r 1) 2

/-- The cookie. -/
def reqCookie (r : RawRequest) : Word32 := BitVec.ofNat 32 (rawNat r 2 4)

/-- The handle of a request that names a record. -/
def reqHandle (r : RawRequest) : Handle := ⟨Fin.ofNat 512 (paramNat r 0 2), param r 2⟩

/-- The handle field as the request gave it. -/
def reqHandleBytes (r : RawRequest) : List Byte := [param r 0, param r 1, param r 2]

/-- The feeder a byte names. -/
def feederOf (b : Byte) : FeederNo := Fin.ofNat 8 b.toNat
/-- The line a byte names. -/
def lineNoOf (b : Byte) : LineNo := Fin.ofNat 2 b.toNat

/-- Whether a request may park (R172). -/
def mayPark (r : RawRequest) : Bool :=
  match reqKind r with
  | some .retire | some .contact | some .startBatch => true
  | some .setPhase => reqWait r
  | _ => false

/-- A structural field of the kind is out of range (R173, second table; R29, R86, R105, R106, R120, R142, R183). -/
def structuralFault (k : ReqKind) (r : RawRequest) : Bool :=
  let badHandle := decide (511 < paramNat r 0 2)
  match k with
  | .create => decide (7 < (param r 4).toNat) || decide (paramNat r 5 2 = 0) || decide (1023 < paramNat r 5 2)
      || decide (1 < (param r 7).toNat)
  | .find => (decide (7 < (param r 8).toNat) && param r 8 != 255) || decide (511 < paramNat r 11 2)
  | .read | .cancelMove | .hold | .release | .clearFault | .contact | .retire => badHandle
  | .amend => badHandle || decide (31 < (param r 3).toNat)
  | .setPhase => badHandle || decide (3 < (param r 3).toNat) || decide (7 < (param r 4).toNat)
  | .clearNotices => badHandle || decide (15 < (param r 3).toNat)
  | .configureFeeder => decide (7 < (param r 0).toNat) || decide (1 < (param r 1).toNat)
      || decide (7 < (param r 10).toNat)
  | .readSheet => decide (7 < (param r 0).toNat)
  | .stageEntry => badHandle || decide (3 < (param r 3).toNat)
  | .startBatch => decide ((param r 0).toNat = 0) || decide (16 < (param r 0).toNat)
      || decide (7 < (param r 4).toNat)
  | .configureLine | .lineStart | .lineStop | .readLine => decide (1 < (param r 0).toNat)
  | .configureRate => decide (7 < (param r 0).toNat)
  | .configureAttention => BitVec.ofNat 16 (paramNat r 0 2) &&& ~~~0x0F3F#16 != 0
  | .cancelBatch | .readBatch | .configureSurvey | .setTime => false

/-- A request is malformed (R173). -/
def malformed (r : RawRequest) : Bool :=
  match reqKind r with
  | none => true
  | some k =>
    decide (7 < (rawByte r 1).toNat) || (reqWait r && k != .setPhase) || structuralFault k r

/-- A value brought into a range (R29, R86, R123, R159). -/
def inRange (lo hi n : Nat) : Nat := if n < lo then lo else if hi < n then hi else n

/-! ### Answers (R164, 11.5) -/

/-- Byte `k` of a payload. -/
def payByte (p : List Byte) (k : Nat) : Byte := p.getD k 0

/-- A current of a frame, clamped to the range of R6. -/
def clampCurrent (i : Int) : Int := if i < -1000 then -1000 else if 1000 < i then 1000 else i

/-- The current in two bytes of a payload. -/
def payCurrent (p : List Byte) (k : Nat) : Int :=
  clampCurrent (BitVec.ofNat 16 (ofBytes ((p.drop k).take 2))).toInt

/-- The figures a PRESENT, REPORT or OUTCOME carries (R6). -/
structure Figures where
  currents : ThreeOf Int
  opCount : Word16
  fault : Byte
deriving DecidableEq, Repr

/-- Whether a PRESENT or REPORT has the three-current form. -/
def threeForm (p : List Byte) : Bool := p.length == 11

/-- The figures of a payload, in the one-current or the three-current form (11.5). -/
def payFigures (p : List Byte) : Figures :=
  let n := if threeForm p then 8 else 4
  { currents := if threeForm p then ⟨payCurrent p 2, payCurrent p 4, payCurrent p 6⟩ else ⟨payCurrent p 2, 0, 0⟩
    opCount := BitVec.ofNat 16 (ofBytes ((p.drop n).take 2))
    fault := payByte p (n + 2) }

/-- The phase in byte 1 of a payload (R164). -/
def payPhase (p : List Byte) : Option Phase := phaseOf (payByte p 1).toNat

/-- The function codes of R130. -/
def fnSummon : Byte := 0x01
/-- POLL. -/
def fnPoll : Byte := 0x02
/-- MOVE. -/
def fnMove : Byte := 0x03
/-- CHECK. -/
def fnCheck : Byte := 0x04
/-- PRESENT. -/
def fnPresent : Byte := 0x81
/-- REPORT. -/
def fnReport : Byte := 0x82
/-- ACCEPT. -/
def fnAccept : Byte := 0x83
/-- DECLINE. -/
def fnDecline : Byte := 0x84
/-- OUTCOME. -/
def fnOutcome : Byte := 0x85

/-- The function code of a transaction's down frame. -/
def TxnKind.function : TxnKind → Byte
  | .summon => fnSummon | .poll => fnPoll | .move => fnMove | .check => fnCheck

/-- An answer's function is one the transaction expects, and its payload length is one the function allows (R130,
R132, 11.5). -/
def expectedAnswer (k : TxnKind) (fn : Byte) (len : Nat) : Bool :=
  match k with
  | .summon => fn == fnPresent && (len == 7 || len == 11)
  | .poll => fn == fnReport && (len == 7 || len == 11)
  | .move => (fn == fnAccept && len == 0) || (fn == fnDecline && len == 2)
  | .check => fn == fnOutcome && len == 7

/-! ### Frames (R127 to R129) -/

/-- One bit of the CRC register's shift. -/
def crcShift (c : Word16) : Word16 := if c.msb then (c <<< 1) ^^^ 0x1021#16 else c <<< 1

/-- The CRC register after a byte, most significant bit first. -/
def crcByte (c : Word16) (b : Byte) : Word16 :=
  crcShift (crcShift (crcShift (crcShift (crcShift (crcShift (crcShift (crcShift
    (c ^^^ (b.setWidth 16 <<< 8)))))))))

/-- The CRC of R128: x^16 + x^12 + x^5 + 1, from FFFFH, no final inversion. -/
def crc (l : List Byte) : Word16 := l.foldl crcByte 0xFFFF#16

/-- The escape of R128. -/
def escapeByte (b : Byte) : List Byte :=
  if b == 0xC5 || b == 0xCA || b == 0xCB then [0xCB, b - 0xC0] else [b]

/-- A frame's fields between the marks. -/
structure Frame where
  address : Word16
  function : Byte
  sequence : Byte
  payload : List Byte
deriving DecidableEq, Repr

/-- The bytes from the unit address to the last payload byte. -/
def Frame.covered (f : Frame) : List Byte :=
  be16 f.address.toNat ++ [f.function, f.sequence, byteOf f.payload.length] ++ f.payload

/-- The unescaped bytes between the marks: what the CRC covers, then the CRC. -/
def Frame.body (f : Frame) : List Byte := f.covered ++ be16 (crc f.covered).toNat

/-- The characters of a frame as sent: lead, start mark, escaped body, end mark. -/
def Frame.chars (f : Frame) : List Byte :=
  [0xFF, 0xC5] ++ f.body.flatMap escapeByte ++ [0xCA]

/-- A new frame at a start mark. -/
def Assembly.start : Assembly := ⟨[], false, false⟩

/-- A character inside a frame that is neither a start mark nor an end mark (R129). A character with a framing
error and a bad escape mark the frame bad; the test that discards it is made at the end mark (log 12). Either counts
as one byte toward the 31 of the over-length test (log 39). -/
def Assembly.add (a : Assembly) (c : Byte) (framingError : Bool) : Assembly :=
  if framingError then { bytes := a.bytes ++ [c], escape := false, bad := true }
  else if a.escape then
    if c == 0x05 || c == 0x0A || c == 0x0B then { a with bytes := a.bytes ++ [c + 0xC0], escape := false }
    else { bytes := a.bytes ++ [c], escape := false, bad := true }
  else if c == 0xCB then { a with escape := true }
  else { a with bytes := a.bytes ++ [c] }

/-- The tests made when the end mark arrives, and the frame that passes them (R129). -/
def Assembly.close (a : Assembly) : Option Frame :=
  let n := a.bytes.length
  let payload := (a.bytes.drop 5).take (n - 7)
  if a.bad || a.escape || decide (n < 7) || decide (31 < n) || decide (24 < (a.bytes.getD 4 0).toNat)
      || decide ((a.bytes.getD 4 0).toNat ≠ n - 7)
      || decide ((crc (a.bytes.take (n - 2))).toNat ≠ ofBytes (a.bytes.drop (n - 2)))
  then none
  else some ⟨BitVec.ofNat 16 (ofBytes (a.bytes.take 2)), a.bytes.getD 2 0, a.bytes.getD 3 0, payload⟩

/-! ### Sampling (R126) -/

/-- Whether the pair is low `t` sample clocks after the falling edge. -/
def waveLow : Bool → Wave → Nat → Bool
  | _, [], _ => false
  | low, n :: w, t => if t < n then low else waveLow (!low) w (t - n)

/-- The level at a sample clock: true when the pair is low. -/
def lowAt (w : Wave) (t : Nat) : Bool := waveLow true w t

/-- The sample points of a character: half a bit length rounded down, and whole bit lengths after it. Data bit `k`
is sampled at point `k + 1`, the stop bit at point 9. -/
def samplePoint (bitLength k : Nat) : Nat := bitLength / 2 + k * bitLength

/-- The eight data bits sampled from a waveform, least significant first. -/
def sampleByte (bitLength : Nat) (w : Wave) : Byte :=
  bitsByte ((List.range 8).map (fun k => !lowAt w (samplePoint bitLength (k + 1))))

/-- A stop bit sampled low is a framing error. -/
def framingError (bitLength : Nat) (w : Wave) : Bool := lowAt w (samplePoint bitLength 9)

/-- A character time is ten bit lengths (section 6.2). -/
def charTime (bitLength : Nat) : Nat := 10 * bitLength

end Sys2Proof.Machine
end

