-- ==== Sys2Proof/Machine/Flags.lean ====
section
/-! DEFINITION. The flags the part shows the host: the causes of attention, the raise condition and the attention state
(spec/10_attention.md, R182 to R187). -/
namespace Sys2Proof.Machine
open Sys2Proof

/-- The ten causes (R182). -/
inductive Cause where
  | completion | stale | unitEvent | noCandidate | surveyOverrun | soft
  | moveFailed | unitFault | lineSuspended | queueStopped
deriving DecidableEq, Repr

/-- A cause's bit in a cause set (11.1). -/
def Cause.bit : Cause → Word16
  | .completion => 0x0001 | .stale => 0x0002 | .unitEvent => 0x0004 | .noCandidate => 0x0008
  | .surveyOverrun => 0x0010 | .soft => 0x0020
  | .moveFailed => 0x0100 | .unitFault => 0x0200 | .lineSuspended => 0x0400 | .queueStopped => 0x0800

/-- The routine causes. -/
def routineMask : Word16 := 0x003F
/-- The urgent causes. -/
def urgentMask : Word16 := 0x0F00

/-- A pending and enabled cause of a class. -/
def Attention.holds (a : Attention) (mask : Word16) : Bool :=
  a.pendingSet &&& a.enabledSet &&& mask != 0

/-- The raise condition of R184. -/
def Attention.condition (a : Attention) : Bool :=
  a.holds urgentMask || (a.holds routineMask && a.timer.isNone)

/-- ATTNn is active exactly while the state is RAISED (R184). -/
def Attention.active (a : Attention) : Bool := a.raised

/-- The evaluation made in ARMED (R184): when the condition holds the state becomes RAISED, ATTNn shows a falling edge
and the throttle timer is started (R185). With a throttle of 0 no timer is started (log 16). -/
def Attention.evaluate (a : Attention) (now : Nat) : Attention :=
  if !a.raised && a.condition then
    { a with
      raised := true, timer := if a.throttle = 0 then a.timer else some (now + a.throttle), falls := a.falls + 1 }
  else a

/-- A cause joins the pending set, and the state is evaluated (R182, R184). -/
def Attention.raise (a : Attention) (now : Nat) (c : Cause) : Attention :=
  ({ a with pendingSet := a.pendingSet ||| c.bit } : Attention).evaluate now

/-- ARM: ARMED with ATTNn inactive, then evaluated at once (R186). Raised again, ATTNn shows a fresh falling edge. -/
def Attention.arm (a : Attention) (now : Nat) : Attention :=
  ({ a with raised := false } : Attention).evaluate now

/-- ACK: the named causes leave the pending set (R187). -/
def Attention.ack (a : Attention) (causes : Word16) : Attention :=
  { a with pendingSet := a.pendingSet &&& ~~~causes }

/-- A due value has been reached (R155). -/
def reachedBy (due : Option Nat) (now : Nat) : Bool :=
  match due with
  | some d => decide (d ≤ now)
  | none => false

/-- A due value of the form "until" is absent or has passed (R155). -/
def passedBy (due : Option Nat) (now : Nat) : Bool :=
  match due with
  | some d => decide (d ≤ now)
  | none => true

/-- The throttle timer's expiry (R185). -/
def Attention.expire (a : Attention) (now : Nat) : Attention :=
  ({ a with timer := none } : Attention).evaluate now

/-- A cause is raised at the Attention Unit. -/
def State.raise (c : Cause) (s : State) : State :=
  { s with attention := s.attention.raise s.time.elapsed c }

/-- A cause is raised when a condition holds. -/
def State.raiseIf (b : Bool) (c : Cause) (s : State) : State := if b then s.raise c else s

end Sys2Proof.Machine
end

