-- ==== Sys2Proof/Machine/Ops.lean ====
section
/-! DEFINITION. The shared operations: access to each block's tables, the tally (R12, R13, R89, R90), the Record
Store's turns (R23, R24), parked requests and the posting of completions (R177, R178), and events for a line's
pick (R136). -/
namespace Sys2Proof.Machine
open Sys2Proof

/-! ### Access -/

/-- The record at an index. -/
def State.record (s : State) (i : RecIdx) : Record := s.store.table[i]

/-- A record replaced. -/
def State.setRecord (i : RecIdx) (r : Record) (s : State) : State :=
  { s with store := { s.store with table := s.store.table.set i r } }

/-- A record changed. -/
def State.modRecord (i : RecIdx) (g : Record → Record) (s : State) : State := s.setRecord i (g (s.record i))

/-- The move in a slot. -/
def State.slot (s : State) (k : SlotNo) : Option Move := s.sched.slots[k]

/-- A slot written. -/
def State.setSlot (k : SlotNo) (m : Option Move) (s : State) : State :=
  { s with sched := { s.sched with slots := s.sched.slots.set k m } }

/-- The move in a slot changed, where there is one. -/
def State.modSlot (k : SlotNo) (g : Move → Move) (s : State) : State := s.setSlot k ((s.slot k).map g)

/-- A Line Controller. -/
def State.line (s : State) (l : LineNo) : Line := s.lines[l]

/-- A Line Controller changed. -/
def State.modLine (l : LineNo) (g : Line → Line) (s : State) : State :=
  { s with lines := s.lines.set l (g (s.line l)) }

/-- A feeder. -/
def State.feeder (s : State) (f : FeederNo) : Feeder := s.feeders[f]

/-- A feeder changed. -/
def State.modFeeder (f : FeederNo) (g : Feeder → Feeder) (s : State) : State :=
  { s with feeders := s.feeders.set f (g (s.feeder f)) }

/-- A parked entry. -/
def State.park (s : State) (n : ParkNo) : Option Parked := s.engine.parked[n]

/-- The batch changed. -/
def State.modBatch (g : Batch → Batch) (s : State) : State := { s with batch := g s.batch }

/-- The present elapsed count (R155). -/
def State.now (s : State) : Nat := s.time.elapsed

/-- The line that serves a record's feeder (R5, R85). -/
def State.lineOfRecord (s : State) (i : RecIdx) : LineNo := (s.feeder (s.record i).feeder).line

/-- Units of 0.1 s in a number of seconds. -/
def tenths (seconds : Nat) : Nat := 10 * seconds

/-- A new moment: what arises from here on arises after everything before it (R24, log 4). -/
def State.newMoment (s : State) : State := { s with moment := s.moment + 1 }

/-- A handle names the record at its index (R2). -/
def State.names (s : State) (h : Handle) : Bool :=
  h.generation != 0 && h.generation == (s.record h.index).generation && (s.record h.index).state != .vacant

/-! ### Records -/

/-- A record is in service: ACTIVE or RETIRING. -/
def Record.inService (r : Record) : Bool := r.state == .active || r.state == .retiring

/-- A record is waiting (R14). -/
def Record.waiting (r : Record) : Bool :=
  r.state == .active && r.kind == .single && r.target.isSome && r.move.isNone && r.hold.isNone && r.fault.isNone

/-- The result of landing a fault code (R19), and whether it stores or marks a fault. -/
def Record.landed (r : Record) (code : Byte) (stamp : Word32) : Record × Bool :=
  if code = 0 then (r, false)
  else
    match r.fault with
    | none => ({ r with fault := some ⟨code, stamp, false⟩ }, true)
    | some f => if f.code = code then (r, false) else ({ r with fault := some { f with second := true } }, true)

/-- The figures of a frame copied into the record (R6). A SINGLE record takes the one current. -/
def Record.withFigures (r : Record) (g : Figures) : Record :=
  { r with
    current := if r.kind = .single then ⟨g.currents.a, 0, 0⟩ else g.currents
    opCount := g.opCount }

/-- The stamps of R15: last report time, a new deadline, stale cleared. -/
def Record.stamped (r : Record) (stamp : Word32) (now : Nat) : Record :=
  { r with lastReport := some stamp, deadlineDue := some (now + tenths r.deadlineInterval), stale := false }

/-- The restart or drift notices and the others, added (R22). -/
def Record.addNotice (r : Record) (g : Notices → Notices) : Record := { r with notices := g r.notices }

/-- A record's move is in flight (R53). -/
def Move.inFlight (m : Move) : Bool := m.state != .queued

/-- The move of a record, where it has one. -/
def State.moveOf (s : State) (i : RecIdx) : Option (SlotNo × Move) :=
  match (s.record i).move with
  | some k => (s.slot k).map (fun m => (k, m))
  | none => none

/-- The slot of a record's QUEUED move. -/
def State.queuedMove (s : State) (i : RecIdx) : Option (SlotNo × Move) :=
  match s.moveOf i with
  | some (k, m) => if m.inFlight then none else some (k, m)
  | none => none

/-- The slot of a record's move in flight. -/
def State.flyingMove (s : State) (i : RecIdx) : Option (SlotNo × Move) :=
  match s.moveOf i with
  | some (k, m) => if m.inFlight then some (k, m) else none
  | none => none

/-! ### The table read in ascending index -/

/-- The records with their indexes, ascending. -/
def State.indexed (s : State) : List (Record × RecIdx) :=
  s.store.table.toList.zipIdx.map (fun p => (p.1, Fin.ofNat 512 p.2))

/-- The lowest index whose record meets a test. -/
def State.lowest (s : State) (test : Record → RecIdx → Bool) : Option RecIdx :=
  (s.indexed.find? (fun p => test p.1 p.2)).map (·.2)

/-- Every record changed. -/
def mapTable (g : Record → Record) (t : Vector Record 512) : Vector Record 512 :=
  ⟨⟨t.toList.map g⟩, by simp⟩

/-- The occupied slots with their numbers, ascending. -/
def State.moves (s : State) : List (SlotNo × Move) :=
  (s.sched.slots.toList.zipIdx.filterMap (fun p => p.1.map (fun m => (Fin.ofNat 32 p.2, m))))

/-- The lowest-numbered free slot (R52). -/
def State.freeSlot (s : State) : Option SlotNo :=
  (s.sched.slots.toList.findIdx? (fun m => m.isNone)).map (Fin.ofNat 32)

/-! ### The move queue (R56) -/

/-- One QUEUED move stands before another: higher priority, or the same and an earlier entry order. -/
def queuedBefore (x y : SlotNo × Move) : Bool :=
  decide (y.2.priority < x.2.priority) ||
    (x.2.priority == y.2.priority && decide (x.2.entryOrder ≤ y.2.entryOrder))

/-- A QUEUED move put in its place. -/
def queueInsert (x : SlotNo × Move) : List (SlotNo × Move) → List (SlotNo × Move)
  | [] => [x]
  | y :: l => if queuedBefore x y then x :: y :: l else y :: queueInsert x l

/-- The move queue: exactly the slots in state QUEUED, in order (R56). -/
def State.moveQueue (s : State) : List (SlotNo × Move) :=
  (s.moves.filter (fun p => !p.2.inFlight)).foldr queueInsert []

/-! ### The tally (R12, R13, R88 to R90) -/

/-- A record's standing with respect to its feeder's tally (R12). -/
inductive Standing where
  | absent
  | excluded
  | one (p : Phase) (i : Int)
  | three (i : ThreeOf Int)
deriving DecidableEq, Repr

/-- The standing a record's fields give it (R12). -/
def Record.standing (r : Record) : Standing :=
  if r.inService then
    if r.stale then .excluded
    else
      match r.kind with
      | .three => .three r.current
      | .single =>
        match r.phase with
        | none => .excluded
        | some p => .one p r.current.a
  else .absent

/-- A standing removed from a tally (R89). -/
def Feeder.remove (f : Feeder) : Standing → Feeder
  | .absent => f
  | .excluded => { f with excluded := f.excluded - 1 }
  | .one p i => { f with sum := f.sum.update p (· - i), count := f.count.update p (· - 1) }
  | .three i =>
    { f with
      sum := ⟨f.sum.a - i.a, f.sum.b - i.b, f.sum.c - i.c⟩
      count := ⟨f.count.a - 1, f.count.b - 1, f.count.c - 1⟩ }

/-- A standing added to a tally (R89). -/
def Feeder.add (f : Feeder) : Standing → Feeder
  | .absent => f
  | .excluded => { f with excluded := f.excluded + 1 }
  | .one p i => { f with sum := f.sum.update p (· + i), count := f.count.update p (· + 1) }
  | .three i =>
    { f with
      sum := ⟨f.sum.a + i.a, f.sum.b + i.b, f.sum.c + i.c⟩
      count := ⟨f.count.a + 1, f.count.b + 1, f.count.c + 1⟩ }

/-- H, the heaviest phase: the first in the order A, B, C with the largest sum (R90). -/
def Feeder.heaviest (f : Feeder) : Phase :=
  if f.sum.a ≥ f.sum.b ∧ f.sum.a ≥ f.sum.c then .A else if f.sum.b ≥ f.sum.c then .B else .C

/-- L, the lightest phase: the first in the order A, B, C with the smallest sum (R90). -/
def Feeder.lightest (f : Feeder) : Phase :=
  if f.sum.a ≤ f.sum.b ∧ f.sum.a ≤ f.sum.c then .A else if f.sum.b ≤ f.sum.c then .B else .C

/-- The spread: the sum of H minus the sum of L (R90). -/
def Feeder.spread (f : Feeder) : Int := f.sum.get f.heaviest - f.sum.get f.lightest

/-- The spread is above the threshold (R90: strictly). -/
def Feeder.above (f : Feeder) : Bool := decide ((f.threshold : Int) < f.spread)

/-- WATCHING with the persistence timer started (R90, R95, R97). -/
def Feeder.watch (f : Feeder) (now : Nat) : Feeder :=
  { f with state := .watching, timer := some (now + tenths f.persistence), selectionPending := false }

/-- CALM with the timer stopped and no mark (R90). -/
def Feeder.calm (f : Feeder) : Feeder := { f with state := .calm, timer := none, selectionPending := false }

/-- The balancer re-evaluated against the spread (R90). -/
def Feeder.reevaluate (f : Feeder) (now : Nat) : Feeder :=
  match f.state with
  | .calm => if f.above then f.watch now else f
  | .watching => if f.above then f else f.calm
  | .off | .acting | .resting => f

/-- One standing removed from a record's feeder. -/
def State.tallyRemove (r : Record) (s : State) : State :=
  match r.standing with
  | .absent => s
  | st => s.modFeeder r.feeder (·.remove st)

/-- One standing added to a record's feeder. -/
def State.tallyAdd (r : Record) (s : State) : State :=
  match r.standing with
  | .absent => s
  | st => s.modFeeder r.feeder (·.add st)

/-- The balancer of a record's feeder re-evaluated, where the record had a standing in it. -/
def State.tallyDraw (r : Record) (s : State) : State :=
  match r.standing with
  | .absent => s
  | _ => s.modFeeder r.feeder (·.reevaluate s.now)

/-- One tally update: the standing before is removed, the standing after added, then the balancer re-evaluated
(R13, R89). An operation that leaves the standing as it was gives none. -/
def State.tallyUpdate (before after : Record) (s : State) : State :=
  if before.standing = after.standing ∧ before.feeder = after.feeder then s
  else (((s.tallyRemove before).tallyAdd after).tallyDraw before).tallyDraw after

/-- The tally updates of an operation, in ascending record index (R13, R89). -/
def State.tallyUpdates (before after : Vector Record 512) (s : State) : State :=
  (before.toList.zip after.toList).foldl (fun s p => s.tallyUpdate p.1 p.2) s

/-! ### Events for a line's pick (R136) -/

/-- An event of R136 reaches a line. A line with its hold full makes no pick; a line that is PICKING notes it. -/
def Line.pickEvent (ln : Line) : Line :=
  if ln.state = .running then
    match ln.activity with
    | .idle => if ln.receiveHold.length < 2 then { ln with pickWanted := true } else ln
    | .picking => { ln with pickAgain := true }
    | .sending | .listening => ln
  else ln

/-- An event for a line's pick. -/
def State.pickEvent (l : LineNo) (s : State) : State := s.modLine l Line.pickEvent

/-- An event for both lines' picks. -/
def State.pickEventBoth (s : State) : State := (s.pickEvent 0).pickEvent 1

/-! ### Claims and turns (R23, R24) -/

/-- A claim arises at the Record Store. -/
def State.claim (c : Claim) (s : State) : State :=
  { s with store := { s.store with claims := s.store.claims ++ [⟨c, s.moment⟩] } }

/-- A claim arises a number of times. -/
def State.claimTimes (c : Claim) : Nat → State → State
  | 0, s => s
  | n + 1, s => State.claimTimes c n (s.claim c)

/-- No answer waits in either line's receive hold. -/
def State.noAnswers (s : State) : Bool := (s.line 0).receiveHold.isEmpty && (s.line 1).receiveHold.isEmpty

/-- The oldest answer waiting in either hold, and its line (R24). -/
def State.oldestAnswer (s : State) : Option (LineNo × Held) :=
  match (s.line 0).receiveHold.head?, (s.line 1).receiveHold.head? with
  | some x, some y => if x.entered ≤ y.entered then some (0, x) else some (1, y)
  | some x, none => some (0, x)
  | none, some y => some (1, y)
  | none, none => none

/-- The waiting claim of a sort whose turn it is (R24): the store is free, no answer waits, and no claim that
arose earlier waits. -/
def State.turn (want : Claim → Bool) (s : State) : Option Waiting :=
  if s.store.inProgress.isSome || !s.noAnswers then none
  else s.store.claims.find? (fun w => want w.claim && s.store.claims.all (fun v => decide (w.arose ≤ v.arose)))

/-- The states of the two lines. -/
def State.lineStates (s : State) : Vector LineState 2 := #v[(s.line 0).state, (s.line 1).state]

/-- An operation taken by the store. The tests the spec makes at the serving are made here: the run of the line for
a pick operation (R138), the pending mark of a selection (R93), the mark and the state for a wave examination
(R107). -/
def State.serviceOf (c : Claim) (s : State) : Service :=
  let v : Service := ⟨.claim c, s.time.count, true, none, s.batch.state, false, s.now, s.lineStates⟩
  match c with
  | .admission l run => { v with passed := (s.line l).state == .running && (s.line l).run == run }
  | .pickLookup l run => { v with passed := (s.line l).state == .running && (s.line l).run == run }
  | .selection f => { v with passed := (s.feeder f).selectionPending }
  | .wave => { v with passed := s.batch.state == .running && s.batch.examinationPending, next := s.batch.next }
  | _ => v

/-- The marks that the serving of a claim removes, as it is served and before the operation ends (R93, R94, R107, log
38). -/
def State.clearMark (c : Claim) (s : State) : State :=
  match c with
  | .selection f => s.modFeeder f (fun x => { x with selectionPending := false })
  | .wave =>
    if s.batch.state == .running && s.batch.examinationPending then
      s.modBatch (fun b => { b with examinationPending := false, stalled := false })
    else s
  | _ => s

/-- The store takes a waiting claim. -/
def State.take (w : Waiting) (s : State) : State :=
  let t := s.clearMark w.claim
  { t with store := { t.store with claims := t.store.claims.erase w, inProgress := some (s.serviceOf w.claim) } }

/-- The store is free again. -/
def State.freeStore (s : State) : State := { s with store := { s.store with inProgress := none } }

/-- The operation in progress serves a claim of a sort. -/
def Service.serves (want : Claim → Bool) (v : Service) : Bool :=
  match v.work with
  | .claim c => want c
  | .answer _ => false

/-- A claim of a sort served in its turn: whole, or its beginning, or its end (log 1). Where it is not its turn the
command is no event. -/
def serveClaim (part : Part) (want : Claim → Bool) (finish : Service → State → State) (s : State) : State :=
  match part with
  | .whole =>
    match s.turn want with
    | some w => finish (s.serviceOf w.claim) (s.take w).freeStore
    | none => s
  | .begins =>
    match s.turn want with
    | some w => s.take w
    | none => s
  | .ends =>
    match s.store.inProgress with
    | some v => if v.serves want then finish v s.freeStore else s
    | none => s

/-- The oldest answer taken from its hold: the hold has room, which is an event for the line's pick (R135, R136). -/
def State.takeAnswer (l : LineNo) (s : State) : State :=
  s.modLine l (fun ln => Line.pickEvent { ln with receiveHold := ln.receiveHold.tail })

/-- The service of a held answer. -/
def State.answerService (h : Held) (s : State) : Service :=
  ⟨.answer h, s.time.count, true, none, s.batch.state, false, s.now, s.lineStates⟩

/-- An answer of a sort served in its turn (R24): the oldest in either hold, when the store is free. -/
def serveAnswer (part : Part) (fn : Byte) (finish : Held → Word32 → State → State) (s : State) : State :=
  match part with
  | .ends =>
    match s.store.inProgress with
    | some v =>
      match v.work with
      | .answer h => if h.function = fn then finish h v.stamp s.freeStore else s
      | .claim _ => s
    | none => s
  | .whole =>
    match s.oldestAnswer with
    | some (l, h) =>
      if s.store.inProgress.isNone && h.function == fn then finish h s.time.count (s.takeAnswer l) else s
    | none => s
  | .begins =>
    match s.oldestAnswer with
    | some (l, h) =>
      if s.store.inProgress.isNone && h.function == fn then
        let t := s.takeAnswer l
        { t with store := { t.store with inProgress := some (s.answerService h) } }
      else s
    | none => s

/-! ### Parked requests (R177) -/

/-- The completion of a parked entry with a status and the bytes after the handle. -/
def Parked.complete (p : Parked) (st : Status) (rest : List Byte) : Completion :=
  { kind := p.kind, status := st, parked := true, cookie := p.cookie,
    result := area ((match p.handle with | some h => handleBytes h | none => []) ++ rest) }

/-- An entry becomes READY with its formed completion, if it is WAITING and the event is its own (R177). -/
def Parked.settle (mine : Parked → Bool) (form : Parked → Completion) (p : Parked) : Parked :=
  if p.ready.isNone && mine p then { p with ready := some (form p) } else p

/-- Every WAITING entry an event completes becomes READY. -/
def State.completeParked (mine : Parked → Bool) (form : Parked → Completion) (s : State) : State :=
  { s with
    engine :=
      { s.engine with
        parked := ⟨⟨s.engine.parked.toList.map (fun o => o.map (Parked.settle mine form))⟩, by simp⟩ } }

/-- A parked entry of a kind for a record. -/
def Parked.isFor (k : ReqKind) (h : Handle) (p : Parked) : Bool := p.kind == k.code && p.handle == some h

/-- The handle of the record at an index, as it stands. -/
def State.handleAt (s : State) (i : RecIdx) : Handle := ⟨i, (s.record i).generation⟩

/-- A parked SET PHASE with WAIT completes (R41): OK with the result and slot it took, MOVE_FAILED with the move
result, SUPERSEDED and ABORTED with the handle alone. -/
def State.completeWait (h : Handle) (st : Status) (r : MoveResult) (s : State) : State :=
  s.completeParked (Parked.isFor .setPhase h) (fun p =>
    match st with
    | .ok => p.complete .ok [p.result, p.slot]
    | .moveFailed => p.complete .moveFailed [0, 0, byteOf r.code]
    | other => p.complete other [])

/-- A parked CONTACT completes (R151): OK with the class, HUNT_FAILED with the result and the failures, LINE_STOPPED
and ABORTED with the handle. -/
def State.completeContact (h : Handle) (st : Status) (rest : List Byte) (s : State) : State :=
  s.completeParked (Parked.isFor .contact h) (fun p => p.complete st rest)

/-- A parked RETIRE completes OK with the result RETIRING (R51). -/
def State.completeRetire (h : Handle) (s : State) : State :=
  s.completeParked (Parked.isFor .retire h) (fun p => p.complete .ok [byteOf ReqResult.retiring.code])

/-- The entries that have become READY since the last posting, lowest first (R178). -/
def Engine.newlyReady (e : Engine) : List ParkNo :=
  (e.parked.toList.zipIdx.filterMap (fun p =>
    match p.1 with
    | some q => if q.ready.isSome && !e.readyOrder.contains (Fin.ofNat 8 p.2) then some (Fin.ofNat 8 p.2) else none
    | none => none))

/-- A completion to be posted, with the QUIET flag of its request. -/
structure Posting where
  completion : Completion
  quiet : Bool
deriving DecidableEq, Repr

/-- The posting of a READY entry. -/
def Engine.postingOf (e : Engine) (n : ParkNo) : Option Posting :=
  match e.parked[n] with
  | some p => p.ready.map (fun c => ⟨c, p.quiet⟩)
  | none => none

/-- The READY entries in the order of readiness: those that waited for room, then the newly READY (R178). -/
def Engine.readyNow (e : Engine) : List ParkNo :=
  (e.readyOrder ++ e.newlyReady).filter (fun n => (e.postingOf n).isSome)

/-- An element put at a position, at the end when the list is shorter. -/
def insertAt {α : Type} (n : Nat) (x : α) : List α → List α
  | [] => [x]
  | y :: l => match n with
    | 0 => x :: y :: l
    | m + 1 => y :: insertAt m x l

/-- A completion is appended, and raises COMPLETION unless it is OK and QUIET (R176). -/
def State.post (s : State) (p : Posting) : State :=
  let t := { s with engine := { s.engine with completions := s.engine.completions ++ [p.completion] } }
  t.raiseIf (!(p.quiet && p.completion.status == .ok)) .completion

/-- A parked entry is freed. -/
def State.unpark (n : ParkNo) (s : State) : State :=
  { s with engine := { s.engine with parked := s.engine.parked.set n none } }

/-- The places free for parked completions: 16 less the records held, less the place the request in service holds
or is about to use (R178). -/
def State.room (s : State) (own : Option Posting) : Nat :=
  16 - s.engine.completions.length - (if own.isSome || s.engine.inService.isSome then 1 else 0)

/-- The posting of completions (R178): the READY entries in the order of readiness while room remains, and the
request's own completion in its reserved place, at a position among them that R23 leaves open (log 8). -/
def State.posting (own : Option Posting) (s : State) : State :=
  let order := s.engine.readyNow
  let go := order.take (s.room own)
  let posts := go.filterMap s.engine.postingOf
  let all :=
    match own with
    | none => posts
    | some c => if posts.isEmpty then [c] else insertAt (Config.ownPosition s.free) c posts
  let t := { s with engine := { s.engine with readyOrder := order.drop (s.room own) }, free := s.free + 1 }
  all.foldl State.post (go.foldl (fun s n => s.unpark n) t)

/-! ### What an operation hands on when it ends (R23) -/

/-- The slots an operation freed and left free: occupied when it began, free when it ended (R58). -/
def freedSlots (before after : Vector (Option Move) 32) : Nat :=
  (before.toList.zip after.toList).countP (fun p => p.1.isSome && p.2.isNone)

/-- A slot freed and filled again in one operation held a move in flight before and holds a QUEUED one after: no move
in flight is queued again (R78, R82, log 31). -/
def refilled (before after : Option Move) : Bool :=
  before.any (fun m => m.inFlight) && after.any (fun m => !m.inFlight)

/-- The slots an operation freed and filled again. -/
def refilledSlots (before after : Vector (Option Move) 32) : Nat :=
  (before.toList.zip after.toList).countP (fun p => refilled p.1 p.2)

/-- Slot-free service is claimed for each slot left free when the waiting list is not empty (R58). -/
def State.claimSlotFree (n : Nat) (s : State) : State :=
  if s.sched.waitingList.isEmpty then s else State.claimTimes .slotFree n s

/-- A stalled wave is told of each slot freed, filled again or not: it marks an examination and claims it (R109). -/
def State.resumeWave (n : Nat) (s : State) : State :=
  if n ≠ 0 ∧ s.batch.stalled then
    State.claimTimes .wave n (s.modBatch (fun b => { b with examinationPending := true }))
  else s

/-- The tally updates and slot freeings of an operation that took `before` to `after`. -/
def State.handOn (before after : State) : State :=
  let n := freedSlots before.sched.slots after.sched.slots
  ((after.tallyUpdates before.store.table after.store.table).claimSlotFree n).resumeWave
    (n + refilledSlots before.sched.slots after.sched.slots)

/-- An operation of the Record Store that answers no request: its body, what it hands on, and the posting of the
completions it made READY. -/
def State.operate (body : State → State) (s : State) : State :=
  let t := s.newMoment
  (State.handOn t (body t)).posting none

/-! ### Replies to the request in service (R172, R177, R179) -/

/-- How a request leaves service: completed with a status and a result area, or parked. -/
inductive Reply where
  | complete (st : Status) (result : List Byte)
  | park (waitsOn : WaitsOn) (result : Byte) (slot : Byte)
deriving DecidableEq, Repr

/-- A request completes at once (R172, R175): its completion takes the reserved place and its status is recorded. -/
def State.completeNow (raw : RawRequest) (st : Status) (result : List Byte) (s : State) : State :=
  let t := { s with engine := { s.engine with inService := none, previous := st } }
  t.posting (some
    { completion := { kind := rawKind raw, status := st, parked := false, cookie := reqCookie raw, result := area result }
      quiet := reqQuiet raw })

/-- The parked entry a request makes (R27, R177). START BATCH holds no record (R106). -/
def parkedEntry (raw : RawRequest) (w : WaitsOn) (result slot : Byte) : Parked :=
  { kind := rawKind raw, cookie := reqCookie raw, quiet := reqQuiet raw,
    handle := if w = .batchEnd then none else some (reqHandle raw), waitsOn := w, result := result, slot := slot,
    ready := none }

/-- A request parks in its reserved entry: the completion-queue reservation is released, and the recorded previous
status becomes OK (R172, R175). -/
def State.parkNow (q : InService) (w : WaitsOn) (result slot : Byte) (s : State) : State :=
  let e := { s.engine with inService := none, previous := Status.ok }
  let e :=
    match q.entry with
    | some n => { e with parked := e.parked.set n (some (parkedEntry q.raw w result slot)) }
    | none => e
  ({ s with engine := e } : State).posting none

/-- The request in service leaves it. -/
def State.reply (q : InService) (r : Reply) (s : State) : State :=
  match r with
  | .complete st result => s.completeNow q.raw st result
  | .park w result slot => s.parkNow q w result slot

/-- The request in service is of a kind. -/
def State.serving (k : ReqKind) (s : State) : Bool :=
  match s.engine.inService with
  | some q => reqKind q.raw == some k
  | none => false

/-- The body of a request: from its record, the Time Count of its serving and the state, the new state and the
reply. -/
abbrev Body := RawRequest → Word32 → State → State × Reply

/-- A request's operation carried out and answered. -/
def State.answerRequest (body : Body) (q : InService) (stamp : Word32) (s : State) : State :=
  let t := s.newMoment
  let (u, r) := body q.raw stamp t
  (State.handOn t u).reply q r

/-- A request of a kind served by the Record Store in its turn (R26); the body may read the service, for what was read
when the request was served. -/
def serveRequestWith (part : Part) (k : ReqKind) (body : Service → Body) (s : State) : State :=
  if s.serving k then
    serveClaim part (· == .request) (fun v t =>
      match t.engine.inService with
      | some q => t.answerRequest (body v) q v.stamp
      | none => t) s
  else s

/-- A request of a kind served by the Record Store in its turn, whose body reads the state alone. -/
def serveRequest (part : Part) (k : ReqKind) (body : Body) (s : State) : State :=
  serveRequestWith part k (fun _ => body) s

/-- A refused request carries its handle, and no other result value (R26). -/
def refuse (raw : RawRequest) (st : Status) (s : State) : State × Reply :=
  (s, .complete st (match reqKind raw with
    | some k => if k.namesRecord then reqHandleBytes raw else []
    | none => []))

end Sys2Proof.Machine
end

