-- ==== Sys2Proof/Machine/BatchOps.lean ====
section
/-! DEFINITION. The Batch Engine's shared operations: the beginning and end of a wave, the end of the batch, and the
notice of a move's end (spec/05_batches.md, R107, R110 to R113, R115). -/
namespace Sys2Proof.Machine
open Sys2Proof

/-- A FAILED entry (R103). -/
def EntryResult.isFailed : EntryResult → Bool
  | .failed _ => true
  | _ => false

/-- A REFUSED entry (R103). -/
def EntryResult.isRefused : EntryResult → Bool
  | .refused _ => true
  | _ => false

/-- The number of entries whose result meets a test. -/
def Batch.countOf (b : Batch) (test : EntryResult → Bool) : Nat := b.entries.countP (fun e => test e.result)

/-- Whether any entry of the list is IN_MOVE. -/
def Batch.anyInMove (b : Batch) : Bool := b.entries.any (fun e => e.result == .inMove)

/-- An entry given a result. -/
def Batch.setResult (b : Batch) (k : Nat) (r : EntryResult) : Batch :=
  match b.entries[k]? with
  | some e => { b with entries := b.entries.set k { e with result := r } }
  | none => b

/-- Every PENDING entry becomes FLUSHED. -/
def Batch.flushPending (b : Batch) : Batch :=
  { b with entries := b.entries.map (fun e => if e.result = .pending then { e with result := .flushed } else e) }

/-- The entries of the wave, first to last. -/
def Batch.wave (b : Batch) : List Entry :=
  match b.waveFirst, b.waveLast with
  | some x, some y => (b.entries.drop x).take (y + 1 - x)
  | _, _ => []

/-- The batch without a list and with its parameters and wave fields at their full-reset values (R105, R114). -/
def Batch.emptied (b : Batch) (st : BatchState) : Batch :=
  { Batch.reset with state := st, startParked := b.startParked }

/-- The result area of the START BATCH completion (R113): the last wave begun and the six counts. -/
def Batch.totals (b : Batch) : List Byte :=
  [byteOf b.waveNumber, byteOf (b.countOf (· == .done)), byteOf (b.countOf (· == .already)),
   byteOf (b.countOf EntryResult.isFailed), byteOf (b.countOf EntryResult.isRefused),
   byteOf (b.countOf (· == .flushed)), byteOf (b.countOf (· == .aborted))]

/-- The batch becomes ENDED, and its parked START BATCH completes with a status (R113). -/
def State.batchEnd (st : Status) (s : State) : State :=
  let b := s.batch
  let t := s.modBatch (fun b =>
    { b with state := .ended, settleDue := none, examinationPending := false, stalled := false, next := none,
             startParked := false })
  if b.startParked then
    t.completeParked (fun p => p.kind == ReqKind.startBatch.code) (fun p => p.complete st b.totals)
  else t

/-- A wave begins at an entry: its last entry, the pending mark and the claim of its examination (R107, R112). -/
def State.beginWave (number first : Nat) (s : State) : State :=
  (s.modBatch (fun b =>
    { b with
      state := .running, waveNumber := number, waveFirst := some first,
      waveLast := some (min (first + b.waveSize.getD 1 - 1) (b.entries.length - 1)),
      next := some first, examinationPending := true, settleDue := none })).claim .wave

/-- The next wave begins at the entry after the previous wave's last (R112). -/
def State.nextWave (s : State) : State :=
  match s.batch.waveLast with
  | some y => s.beginWave (s.batch.waveNumber + 1) (y + 1)
  | none => s

/-- What a wave's end brings (R111): stop-on-failure, the end of the list, the settle, or the next wave at once. -/
def State.waveEnd (s : State) : State :=
  let b := s.batch
  if b.stopOnFailure && b.wave.any (fun e => e.result.isFailed) then (s.modBatch Batch.flushPending).batchEnd .ok
  else if b.waveLast = some (b.entries.length - 1) then s.batchEnd .ok
  else if 0 < b.settle.getD 0 then
    s.modBatch (fun b => { b with state := .settling, settleDue := some (s.now + tenths (b.settle.getD 0)) })
  else s.nextWave

/-- The test for the end of a wave: RUNNING, its examination complete, none of its entries IN_MOVE (R111). -/
def State.testWaveEnd (s : State) : State :=
  if s.batch.state = .running ∧ s.batch.next = none ∧ s.batch.wave.all (fun e => e.result != .inMove) then s.waveEnd
  else s

/-- An entry's result from its move's (R110). -/
def EntryResult.ofMove : MoveResult → EntryResult
  | .done => .done
  | .already => .already
  | r => .failed r

/-- The Batch Engine is told of the end of a move enqueued by BATCH (R110, R115). -/
def State.batchNotice (k : Nat) (h : Handle) (r : MoveResult) (s : State) : State :=
  match s.batch.entries[k]? with
  | some e =>
    if e.result = .inMove ∧ e.handle = h then
      let t := s.modBatch (fun b => b.setResult k (.ofMove r))
      match t.batch.state with
      | .running => t.testWaveEnd
      | .cancelling => if t.batch.anyInMove then t else t.batchEnd .cancelled
      | _ => t
    else s
  | none => s

end Sys2Proof.Machine
end

