-- ==== Sys2Proof/Machine/MoveOps.lean ====
section
/-! DEFINITION. The Move Scheduler's shared operations: enqueuing and re-placing a move, the end of a move, the vacating
of a record, the landing of a fault, and the target reached (spec/03_phase_moves.md, R57 to R60, R73 to R78, R84;
spec/01_the_connection_table.md, R10, R19). -/
namespace Sys2Proof.Machine
open Sys2Proof

/-! ### Enqueuing (R57 to R59) -/

/-- The index of the staging-list entry that names a record index (R57, R110). -/
def State.batchEntryOf (s : State) (i : RecIdx) : Option Nat :=
  s.batch.entries.findIdx? (fun e => e.handle.index == i)

/-- Who enqueues a move for a target (R57). -/
def State.enqueuer (s : State) (i : RecIdx) (o : Origin) : Option EnqueuedBy :=
  match o with
  | .balancer => some .balancer
  | .batch => (s.batchEntryOf i).map .batch
  | .host | .restore => none

/-- A move enqueued for a target into a slot (R52, R57), an event for its line's pick (R61). A balancer selection (R94) and
a wave examination (R108) enqueue at once, also for a record that still stands in the waiting list (log 34). R52 sets
resolve mode at admission and attempts left at a transaction; until then they stand at off and 0 (log 47). -/
def State.enqueue (i : RecIdx) (k : SlotNo) (t : Target) (s : State) : State :=
  let m : Move :=
    { index := i, generation := (s.record i).generation, origin := t.origin, enqueuedBy := s.enqueuer i t.origin,
      priority := t.priority, toPhase := t.phase, fromPhase := none, state := .queued, sequence := none,
      resolve := false, attemptsLeft := 0, inProgressSeen := 0, entryOrder := s.sched.entryCount + 1,
      closed := false, confirmDue := none, checkDue := none }
  let u := (s.setSlot k (some m)).modRecord i (fun r => { r with move := some k })
  State.pickEvent (s.lineOfRecord i) { u with sched := { u.sched with entryCount := u.sched.entryCount + 1 } }

/-- The record index stands in the waiting list. -/
def State.listed (s : State) (i : RecIdx) : Bool := s.sched.waitingList.any (fun e => e.index == i)

/-- An entry put in its place: highest priority first, then lowest index (R57). -/
def waitingInsert (e : WaitingEntry) : List WaitingEntry → List WaitingEntry
  | [] => [e]
  | x :: l =>
    if decide (x.priority < e.priority) || (x.priority == e.priority && decide (e.index ≤ x.index))
    then e :: x :: l else x :: waitingInsert e l

/-- The record enters the waiting list, or its entry takes the new priority (R57). -/
def State.enlist (i : RecIdx) (priority : Nat) (s : State) : State :=
  { s with
    sched :=
      { s.sched with
        waitingList := waitingInsert ⟨i, priority⟩ (s.sched.waitingList.filter (fun e => e.index != i)) } }

/-- The Move Scheduler is told of a record the operation leaves waiting (R14, R57): a move is enqueued in the lowest
free slot, unless none is free or the record is already in the waiting list. -/
def State.tellWaiting (i : RecIdx) (s : State) : State :=
  let r := s.record i
  match r.waiting, r.target with
  | true, some t =>
    match s.freeSlot with
    | some k => if s.listed i then s.enlist i t.priority else s.enqueue i k t
    | none => s.enlist i t.priority
  | _, _ => s

/-- A QUEUED move takes a changed target (R59): new place and entry order, an event for the line's pick (R61), when the
to-phase or the priority differs; the new origin in every case. A change of the origin alone is no event (log 37). -/
def State.replaceMove (k : SlotNo) (t : Target) (s : State) : State :=
  match s.slot k with
  | none => s
  | some m =>
    if m.toPhase = t.phase ∧ m.priority = t.priority then s.setSlot k (some { m with origin := t.origin })
    else
      let u := s.setSlot k (some
        { m with toPhase := t.phase, priority := t.priority, origin := t.origin,
                 entryOrder := s.sched.entryCount + 1 })
      State.pickEvent (s.lineOfRecord m.index)
        { u with sched := { u.sched with entryCount := u.sched.entryCount + 1 } }

/-! ### Vacating and targets -/

/-- A record becomes VACANT: vacant values, generation kept, and its parked requests complete (R10). The tally update
is drawn from the table when the operation ends. -/
def State.vacate (i : RecIdx) (s : State) : State :=
  let h := s.handleAt i
  let t := s.setRecord i (Record.vacant h.generation)
  ((t.completeRetire h).completeWait h .aborted .aborted).completeContact h .aborted []

/-- A record's target removed, with the status its parked WAIT then takes (R41). -/
def State.dropTarget (i : RecIdx) (st : Status) (r : MoveResult) (s : State) : State :=
  if (s.record i).target.isSome then
    (s.modRecord i (fun x => { x with target := none })).completeWait (s.handleAt i) st r
  else s

/-! ### The end of a move (R73 to R76) -/

/-- A result after which the record takes the MOVE_FAILED notice and raises the cause (R74). -/
def MoveResult.failing : MoveResult → Bool
  | .declined | .noAnswer | .restoredBack | .unsupplied | .lost | .budgetSpent => true
  | .done | .already | .aborted => false

/-- A result that sets the cool-down: the unit may have operated its switch (R74). -/
def MoveResult.switched : MoveResult → Bool
  | .done | .restoredBack | .unsupplied | .lost => true
  | .already | .declined | .noAnswer | .aborted | .budgetSpent => false

/-- How a move ends: its result, the present phase it sets (none: unchanged), whether it removes a target of a given
phase, and the status a parked WAIT takes when the target is removed. -/
structure Ending where
  result : MoveResult
  phase : Option (Option Phase)
  keepsTarget : Bool
  wait : Status
deriving DecidableEq, Repr

/-- The ending a result gives by the table of R74; ABORTED ends are made by `Ending.aborted`. A DONE keeps a target
that differs from the new present phase. -/
def Ending.of (r : MoveResult) (m : Move) (target : Option Target) : Ending :=
  match r with
  | .done => ⟨.done, some (some m.toPhase), target.any (fun t => t.phase != m.toPhase), .ok⟩
  | .already => ⟨.already, some (some m.toPhase), false, .ok⟩
  | .unsupplied => ⟨.unsupplied, some none, false, .moveFailed⟩
  | .lost => ⟨.lost, some none, false, .moveFailed⟩
  | .aborted => ⟨.aborted, none, false, .aborted⟩
  | r => ⟨r, none, false, .moveFailed⟩

/-- An ABORTED end: with the target kept, or removed with a status for a parked WAIT (R75). -/
def Ending.aborted (keepsTarget : Bool) (wait : Status) : Ending := ⟨.aborted, none, keepsTarget, wait⟩

/-- The record's fields after a move's end (R73, R74), the fault landing of UNSUPPLIED included (R71). -/
def Record.afterMove (r : Record) (e : Ending) (m : Move) (stamp : Word32) (coolUntil : Nat) : Record × Bool :=
  let x :=
    { r with
      lastMove := some ⟨e.result, m.origin, stamp⟩
      move := none
      phase := e.phase.getD r.phase
      coolDown := if e.result.switched then some coolUntil else r.coolDown
      target := if e.keepsTarget then r.target else none
      notices := if e.result.failing then { r.notices with moveFailed := true } else r.notices }
  if e.result = .unsupplied then x.landed 255 stamp else (x, false)

/-- The feeder's in-flight count falls, an event for its line's pick, where the move was in flight (R54, R61); the
line's binding of the move is dropped (R119). -/
def State.leaveFlight (k : SlotNo) (m : Move) (s : State) : State :=
  let f := (s.record m.index).feeder
  let l := (s.feeder f).line
  let t := s.modLine l (fun ln => { ln with bindings := ln.bindings.filter (fun b => b.slot != k) })
  if m.inFlight then
    State.pickEvent l
      { t with sched := { t.sched with inFlight := t.sched.inFlight.set f (t.sched.inFlight[f] - 1) } }
  else t

/-- The Balance Unit is told of the end of a move enqueued by BALANCER (R95). -/
def State.balanceNotice (f : FeederNo) (h : Handle) (s : State) : State :=
  s.modFeeder f (fun x =>
    if x.state = .acting ∧ x.lastHandle = some h then
      if x.above then x.watch s.now else x.calm
    else x)

/-- The blocks that enqueued the move are told of its end (R76). -/
def State.tellEnd (f : FeederNo) (m : Move) (r : MoveResult) (s : State) : State :=
  match m.enqueuedBy with
  | some .balancer => s.balanceNotice f ⟨m.index, m.generation⟩
  | some (.batch k) => s.batchNotice k ⟨m.index, m.generation⟩ r
  | none => s

/-- The move in a slot ends (R73): last move result, the effects of R74, the slot freed, the count, the notices, a
parked WAIT, and the vacating of a RETIRING record. -/
def State.endMove (k : SlotNo) (e : Ending) (stamp : Word32) (s : State) : State :=
  match s.slot k with
  | none => s
  | some m =>
    let r := s.record m.index
    let h : Handle := ⟨m.index, r.generation⟩
    let x := r.afterMove e m stamp (s.now + tenths (s.feeder r.feeder).coolDown)
    let t := ((s.leaveFlight k m).setSlot k none).setRecord m.index x.1
    let t := (t.raiseIf e.result.failing .moveFailed).raiseIf x.2 .unitFault
    let t := if r.target.isSome && !e.keepsTarget then t.completeWait h e.wait e.result else t
    let t := t.tellEnd r.feeder m e.result
    if r.state = .retiring then t.vacate m.index else t

/-- The move in a slot ends with a result, by the table of R74. -/
def State.endWith (k : SlotNo) (res : MoveResult) (stamp : Word32) (s : State) : State :=
  match s.slot k with
  | none => s
  | some m => s.endMove k (.of res m (s.record m.index).target) stamp

/-- Whether a slot still holds the move an end claim names (R77). -/
def State.holdsMove (s : State) (k : SlotNo) (h : Handle) (sequence : Byte) : Bool :=
  match s.slot k with
  | some m => m.index == h.index && m.generation == h.generation && m.sequence == some sequence
  | none => false

/-! ### Faults and targets reached -/

/-- A fault code lands on a record (R19): UNIT_FAULT when it stores or marks a fault, and then a QUEUED move ends
ABORTED with the target kept. -/
def State.landFault (i : RecIdx) (code : Byte) (stamp : Word32) (s : State) : State :=
  let x := (s.record i).landed code stamp
  if x.2 then
    let t := (s.setRecord i x.1).raise .unitFault
    match t.queuedMove i with
    | some (k, _) => t.endMove k (.aborted true .aborted) stamp
    | none => t
  else s

/-- The comparison of R84: a target equal to the present phase, with no move in flight, is removed; a QUEUED move
ends ALREADY; a parked WAIT completes OK. -/
def State.targetReached (i : RecIdx) (stamp : Word32) (s : State) : State :=
  let r := s.record i
  match r.target, r.phase with
  | some t, some p =>
    if t.phase = p ∧ (s.flyingMove i).isNone then
      match s.queuedMove i with
      | some (k, _) => s.endWith k .already stamp
      | none => s.dropTarget i .ok .already
    else s
  | _, _ => s

/-! ### Slot-free service (R58) -/

/-- The entries of the waiting list taken in order until one record is still waiting and is given the slot. -/
def slotFreeLoop (k : SlotNo) : List WaitingEntry → State → State
  | [], s => { s with sched := { s.sched with waitingList := [] } }
  | e :: l, s =>
    let t := { s with sched := { s.sched with waitingList := l } }
    match (t.record e.index).waiting, (t.record e.index).target with
    | true, some target => t.enqueue e.index k target
    | _, _ => slotFreeLoop k l t

/-- Slot-free service: the list is unchanged when no slot is free. -/
def State.serveSlotFree (s : State) : State :=
  match s.freeSlot with
  | some k => slotFreeLoop k s.sched.waitingList s
  | none => s

end Sys2Proof.Machine
end

