-- ==== Sys2Proof/Machine/Images.lean ====
section
/-! DEFINITION. The images the host reads: the record image (R35, R190), the tally image (R91), the batch status image
(R116), the line image (R124), the completion record (R179), the port summary and the port status (R167, R170), all
laid out as spec/11_formats.md gives. -/
namespace Sys2Proof.Machine
open Sys2Proof

/-- The time remaining in units of 0.1 s: 0 when absent or passed. -/
def remainingTenths (due : Option Nat) (now : Nat) : Nat :=
  match due with
  | some d => d - now
  | none => 0

/-- The time remaining in whole seconds, rounded up (R189). -/
def remaining (due : Option Nat) (now : Nat) : Nat := (remainingTenths due now + 9) / 10

/-- A number packed from parts, each a value and its width in bits, from the top bit down. -/
def packBits (parts : List (Nat × Nat)) : Nat := parts.foldl (fun n p => n * 2 ^ p.2 + p.1 % 2 ^ p.2) 0

/-- A number in a given count of bytes, high byte first. -/
def beBytes : Nat → Nat → List Byte
  | 0, _ => []
  | k + 1, n => beBytes k (n / 256) ++ [byteOf n]

/-- View 0 of a record: identity, settings, load, target and move (11.4). -/
def Record.view0 (r : Record) (i : RecIdx) : List Byte :=
  be16 i.val ++ [r.generation, byteOf r.state.code]
    ++ [bitsByte [r.kind == .three, r.stale, r.autoRestore, r.hold.isSome, r.target.isSome, r.move.isSome,
          r.rateClass.isSome]]
    ++ [byteOf r.feeder.val] ++ be16 r.unitAddress.toNat ++ be32 r.serviceKey.toNat
    ++ [phaseSetByte r.allowed, byteOf (phaseCode r.phase)]
    ++ be16 (twos 16 r.current.a) ++ be16 (twos 16 r.current.b) ++ be16 (twos 16 r.current.c)
    ++ (match r.target with
        | some t => [byteOf t.phase.code, byteOf t.priority, byteOf t.origin.code]
        | none => [0, 0, 0])
    ++ [byteOf (match r.move with | some k => k.val | none => 0), r.hold.getD 0, noticesByte r.notices,
        byteOf (match r.rateClass with | some c => c.val | none => 0), r.tag, byteOf r.dailyUsed,
        byteOf r.dailyBudget]
    ++ be16 r.deadlineInterval

/-- View 1 of a record: stamps, fault, last move result, intervals and hunt fields (11.4). -/
def Record.view1 (r : Record) (i : RecIdx) (now : Nat) : List Byte :=
  be16 i.val ++ [r.generation, byteOf r.state.code]
    ++ [bitsByte [r.lastReport.isSome, r.fault.isSome, r.fault.any (·.second)]]
    ++ be32 (r.lastReport.getD 0).toNat ++ be16 r.opCount.toNat
    ++ (match r.fault with
        | some f => f.code :: be32 f.time.toNat
        | none => [0, 0, 0, 0, 0])
    ++ (match r.lastMove with
        | some m => [byteOf m.result.code, byteOf m.origin.code] ++ be32 m.time.toNat
        | none => [0, 0, 0, 0, 0, 0])
    ++ be16 (remaining r.deadlineDue now) ++ be16 (remaining r.coolDown now) ++ be16 (remaining r.huntDue now)
    ++ [byteOf r.huntFailures, byteOf (match r.lastHunt with | some h => h.code | none => 0), 0, 0]

/-- The tally image of a feeder (11.4). -/
def State.tallyImage (s : State) (f : FeederNo) : List Byte :=
  let x := s.feeder f
  [bitsByte [x.configured, x.line == 1, x.enable, x.selectionPending, x.lastHandle.isSome],
   byteOf (x.inFlightLimit + 16 * s.sched.inFlight[f]),
   byteOf (x.priority + 16 * x.state.code),
   byteOf (x.heaviest.code + 16 * x.lightest.code)]
    ++ be16 x.coolDown ++ be16 x.threshold ++ be16 x.persistence
    ++ be24 (twos 24 x.sum.a) ++ be24 (twos 24 x.sum.b) ++ be24 (twos 24 x.sum.c)
    ++ beBytes 5 (packBits [(x.count.a, 10), (x.count.b, 10), (x.count.c, 10), (x.excluded, 10)])
    ++ be24 x.spread.toNat ++ be16 (remaining x.timer s.now)
    ++ (match x.lastHandle with | some h => handleBytes h | none => [0, 0, 0])

/-- The bytes of one entry in the batch status image: index, to-phase and result code in 16 bits, then the
generation (11.4). -/
def Entry.image (e : Entry) : List Byte :=
  beBytes 2 (packBits [(e.handle.index.val, 9), (e.toPhase.code, 2), (e.result.code, 5)]) ++ [e.handle.generation]

/-- The batch has parameters: RUNNING, SETTLING, CANCELLING and ENDED (11.4). -/
def Batch.hasParameters (b : Batch) : Bool := b.state != .empty && b.state != .staging

/-- The batch status image from a first entry index on (11.4). -/
def State.batchImage (s : State) (first : Nat) : List Byte :=
  let b := s.batch
  let p (n : Nat) : Nat := if b.hasParameters then n else 0
  let w (o : Option Nat) : Nat := if b.waveNumber = 0 then 0 else o.getD 0
  let head := packBits
    [(b.state.code, 3), (if b.stalled then 1 else 0, 1), (p (if b.stopOnFailure then 1 else 0), 1), (p b.priority, 3),
     (b.waveNumber, 7), (w b.waveFirst, 6), (w b.waveLast, 6), (p (b.waveSize.getD 1 - 1), 4),
     (p (b.settle.getD 0), 10), (remaining b.settleDue s.now, 10), (b.entries.length, 7),
     (b.countOf (· == .pending), 7), (b.countOf (· == .inMove), 5), (b.countOf (· == .done), 7),
     (b.countOf (· == .already), 7), (b.countOf EntryResult.isFailed, 7), (b.countOf EntryResult.isRefused, 7),
     (b.countOf (· == .flushed), 7), (b.countOf (· == .aborted), 7)]
  beBytes 14 head ++ padTo 18 (((b.entries.drop first).take 6).flatMap Entry.image)

/-- The five settings of a line, laid out as CONFIGURE LINE offsets 1 to 6 (11.3). -/
def Line.settings (ln : Line) : List Byte :=
  [byteOf ln.retryLimit, byteOf ln.turnaround, byteOf ln.confirmDelay, byteOf ln.silenceLimit]
    ++ be16 ln.huntInterval

/-- The line image (11.4). -/
def State.lineImage (s : State) (l : LineNo) : List Byte :=
  let ln := s.line l
  [byteOf ln.state.code, byteOf ln.activity.code]
    ++ (match ln.out with
        | some t => t.kind.function :: be16 t.index.val
        | none => [0, 0, 0])
    ++ [byteOf ln.attemptsLeft, byteOf ln.silence]
    ++ (match ln.round with | some n => be16 n | none => [0xFF, 0xFF])
    ++ [s.sched.lineSequence[l], byteOf ln.receiveHold.length]
    ++ ln.settings

/-- The 40 bytes of a completion record, with the more indication (R169, R179). -/
def Completion.bytes (c : Completion) (more : Bool) : List Byte :=
  [c.kind, byteOf c.status.code, boolByte more, boolByte c.parked] ++ be32 c.cookie.toNat ++ c.result.toList

/-- The port summary (R167, 11.2). -/
def State.portSummary (s : State) : Byte :=
  bitsByte [decide (16 ≤ s.engine.queue.length), s.engine.stopped, !s.engine.completions.isEmpty, s.attention.raised]

/-- The sixteen bytes of READ STATUS (R170, 11.2). -/
def State.statusBytes (s : State) : List Byte :=
  [byteOf s.engine.queue.length, bitsByte [s.engine.stopped], byteOf s.engine.completions.length,
   byteOf (s.engine.parked.toList.countP (fun p => p.isSome))]
    ++ be16 s.attention.pendingSet.toNat ++ be16 s.attention.enabledSet.toNat
    ++ [boolByte s.attention.raised, byteOf (s.line 0).state.code, byteOf (s.line 1).state.code, 0]
    ++ be32 s.time.count.toNat

end Sys2Proof.Machine
end

