-- ==== Sys2Proof/Machine/LineOps.lean ====
section
/-! DEFINITION. The Line Controllers' shared operations: starting a transaction (R125, R131), the end of an attempt
(R133, R134), the halt of a line (R121), and the reception of characters and frames (R126, R129, R131, R132, R144
to R146). -/
namespace Sys2Proof.Machine
open Sys2Proof

/-! ### Rates (R125, R141) -/

/-- The bit length of a Rate Table entry. -/
def State.bitLength (s : State) (c : RateNo) : Nat := (s.rate[c]).bitLength.toNat

/-- The maximum start length of a Rate Table entry. -/
def State.maxStart (s : State) (c : RateNo) : Nat := (s.rate[c]).maxStart.toNat

/-- The false-start threshold: half of entry 0's bit length, rounded down (R144). -/
def State.falseStart (s : State) : Nat := s.bitLength 0 / 2

/-- The class of a measured period: the lowest entry whose maximum start length is at or above it (R145). -/
def State.classOf (s : State) (period : Nat) : Option RateNo :=
  (s.rate.toList.findIdx? (fun e => decide (period ≤ e.maxStart.toNat))).map (Fin.ofNat 8)

/-- DE is active while the line transmits (R125). -/
def Line.de (ln : Line) : Bool := ln.activity == .sending

/-- The bits of a character on TXD, true for high: a low start bit, the eight data bits least significant first, a high
stop bit (R125). -/
def charBits (c : Byte) : List Bool :=
  [false, bitOf c 0, bitOf c 1, bitOf c 2, bitOf c 3, bitOf c 4, bitOf c 5, bitOf c 6, bitOf c 7, true]

/-- What a line drives on TXD while it transmits: the bits of the frame's characters with no idle time between them, each
with its length in sample clocks, the bit length of the outstanding transaction (R125). -/
def Line.txd (ln : Line) : List (Bool × Nat) :=
  match ln.out with
  | some t => if ln.de then (ln.tx.flatMap charBits).map (fun b => (b, t.bitLength)) else []
  | none => []

/-! ### Transactions (R131) -/

/-- The line loads a frame and begins a transaction: attempts left is the retry limit plus 1, the activity SENDING,
and no attempt of it has ended yet (R64, R69, R131, R143). -/
def Line.begin (ln : Line) (t : Txn) (payload : List Byte) : Line :=
  { ln with
    activity := .sending, out := some t, attemptsLeft := ln.retryLimit + 1, timer := .stopped, reason := none,
    tx := Frame.chars ⟨t.address, t.kind.function, t.sequence, payload⟩, rx := .atRest }

/-- The slot of a MOVE or CHECK takes the attempts of its new transaction (R52, R63, R69). -/
def State.begin (l : LineNo) (t : Txn) (payload : List Byte) (s : State) : State :=
  let u := s.modLine l (fun ln => ln.begin t payload)
  match t.slot with
  | some k => u.modSlot k (fun m => { m with attemptsLeft := (s.line l).retryLimit + 1 })
  | none => u

/-- The slot of an outstanding MOVE or CHECK, while it still holds the transaction's move. -/
def State.boundSlot (s : State) (t : Txn) : Option SlotNo :=
  match t.slot with
  | some k => if s.holdsMove k ⟨t.index, t.generation⟩ t.sequence then some k else none
  | none => none

/-- The line IDLE with no transaction (R133). Attempts left stands as the transaction left it. -/
def Line.toIdle (ln : Line) : Line :=
  { ln with activity := .idle, out := none, timer := .stopped, rx := .atRest }

/-- The same frame sent again (R133). -/
def Line.resend (ln : Line) : Line := { ln with activity := .sending, timer := .stopped, rx := .atRest }

/-! ### The halt of a line (R121, R79, R139) -/

/-- The move is in flight on a feeder of the line and not already closed. -/
def State.closable (s : State) (l : LineNo) (m : Move) : Bool :=
  m.inFlight && !m.closed && s.lineOfRecord m.index == l

/-- A slot closed: its confirm delay stopped, its CHECK no longer due, its LOST end claimed (R79). -/
def State.closeSlot (k : SlotNo) (m : Move) (s : State) : State :=
  (s.setSlot k (some { m with closed := true, confirmDue := none, checkDue := none })).claim
    (.lineStopLost k ⟨m.index, m.generation⟩ (m.sequence.getD 0))

/-- Every move in flight on the line is closed. -/
def State.closeMoves (l : LineNo) (s : State) : State :=
  (s.moves.filter (fun p => s.closable l p.2)).foldl (fun s p => s.closeSlot p.1 p.2) s

/-- The hunts in progress on a line: the outstanding SUMMON, and each PRESENT in the hold (R121). -/
def Line.hunts (ln : Line) : List Handle :=
  (match ln.out with
    | some t => if t.kind = .summon then [⟨t.index, t.generation⟩] else []
    | none => []) ++
  (ln.receiveHold.filter (fun h => h.function == fnPresent)).map (fun h => ⟨h.binding.index, h.binding.generation⟩)

/-- The line's own part of a halt: transaction, hold, round and bindings are gone, the settings, the run number and
the silence count kept, and an abandoned hunt keeps no reason (R121, R146). -/
def Line.halted (ln : Line) (st : LineState) : Line :=
  { ln with
    state := st, activity := .idle, pickAgain := false, pickWanted := false, out := none, attemptsLeft := 0,
    timer := .stopped, receiveHold := [], bindings := [], round := none, reason := none, tx := [], rx := .atRest }

/-- A parked CONTACT whose record's feeder the line serves. -/
def State.contactOn (s : State) (l : LineNo) (p : Parked) : Bool :=
  p.kind == ReqKind.contact.code &&
    (match p.handle with
      | some h => s.lineOfRecord h.index == l
      | none => false)

/-- A RUNNING line is halted and takes a state (R121): by LINE STOP, by suspension or by a field reset. -/
def State.halt (l : LineNo) (st : LineState) (s : State) : State :=
  let hunts := (s.line l).hunts
  let t := (s.modLine l (fun ln => ln.halted st)).closeMoves l
  let t := hunts.foldl (fun s h => s.claim (.uncountedHunt h)) t
  t.completeParked (s.contactOn l) (fun p => p.complete .lineStopped [])

/-- A line stopped: halted when RUNNING, made STOPPED when SUSPENDED (R121, R122). -/
def State.stopLine (l : LineNo) (s : State) : State :=
  match (s.line l).state with
  | .running => s.halt l .stopped
  | .suspended => s.modLine l (fun ln => { ln with state := .stopped })
  | .stopped => s

/-! ### The end of an attempt (R133, R134) -/

/-- MOVE attempts are exhausted (R68): an OFFERED move the slot still holds, not closed, becomes CHECKING in resolve
mode with a CHECK due at once. -/
def State.moveExhausted (t : Txn) (s : State) : State :=
  match s.boundSlot t with
  | some k =>
    match s.slot k with
    | some m =>
      if m.state = .offered ∧ m.closed = false then
        State.pickEvent (s.lineOfRecord m.index)
          (s.setSlot k (some { m with state := .checking, resolve := true, checkDue := some s.now }))
      else s
    | none => s
  | none => s

/-- The exhaustion of a transaction handed on by kind (R133). -/
def State.exhausted (t : Txn) (reason : HuntResult) (s : State) : State :=
  match t.kind with
  | .summon => s.claim (.huntFailure ⟨t.index, t.generation⟩ reason)
  | .poll => s
  | .move => s.moveExhausted t
  | .check =>
    match t.slot with
    | some k => s.claim (.checkExhausted k ⟨t.index, t.generation⟩ t.sequence)
    | none => s

/-- An attempt ends with no valid answer (R133, R134): the silence count advances; at the limit the line is
suspended, otherwise the frame is sent again or the transaction is exhausted. The reason is kept for a hunt
(R143). -/
def State.attemptFailed (l : LineNo) (reason : HuntResult) (s : State) : State :=
  match (s.line l).out with
  | none => s
  | some t =>
    let u := s.newMoment.modLine l (fun ln =>
      { ln with silence := ln.silence + 1, reason := if t.kind = .summon then some reason else ln.reason })
    let ln := u.line l
    if ln.silenceLimit ≤ ln.silence then ((u.halt l .suspended).raise .lineSuspended).posting none
    else if 0 < ln.attemptsLeft then u.modLine l Line.resend
    else
      let v := u.modLine l Line.toIdle
      (v.exhausted t reason).pickEvent l

/-- A valid answer (R133): the silence count becomes 0, the answer enters the hold, the transaction ends and the line
picks. -/
def State.validAnswer (l : LineNo) (t : Txn) (f : Frame) (s : State) : State :=
  let u := s.newMoment
  let held : Held :=
    { function := f.function, sequence := f.sequence, payload := f.payload, binding := t,
      rateClass := (s.line l).rx.rateClass, entered := u.moment }
  (u.modLine l (fun ln => { ln.toIdle with silence := 0, receiveHold := ln.receiveHold ++ [held] })).pickEvent l

/-! ### The receiver (R126, R129, R131, R132, R144) -/

/-- The receiver at the opening of an answer window, and again after an ignored frame in a hunt: measuring for a
SUMMON, reading at the transaction's bit length otherwise (R131, R144). -/
def Txn.receiver (t : Txn) : Receiver :=
  if t.kind = .summon then { Receiver.atRest with mode := .measuring }
  else { Receiver.atRest with bitLength := t.bitLength }

/-- The timer starts again with its full length, and the receiver waits anew (R131, R132). -/
def Line.waitAgain (ln : Line) (t : Txn) : Line := { ln with timer := .running ln.window, rx := t.receiver }

/-- A frame discarded (R129, R131): in a hunt the attempt ends BAD_FRAME (R146), otherwise the attempt goes on waiting
and the timer starts again. -/
def State.discard (l : LineNo) (t : Txn) (s : State) : State :=
  if t.kind = .summon then s.attemptFailed l .badFrame
  else s.modLine l (fun ln => ln.waitAgain t)

/-- An accepted frame judged against the outstanding transaction (R132, R146). -/
def State.judge (l : LineNo) (t : Txn) (f : Frame) (s : State) : State :=
  if f.address ≠ t.address then s.modLine l (fun ln => ln.waitAgain t)
  else if expectedAnswer t.kind f.function f.payload.length
      && (t.slot.isNone || f.sequence == t.sequence) then s.validAnswer l t f
  else s.attemptFailed l .badFrame

/-- An end mark closes the frame being assembled (R129). -/
def State.closeFrame (l : LineNo) (t : Txn) (a : Assembly) (s : State) : State :=
  match a.close with
  | some f => s.judge l t f
  | none => s.discard l t

/-- The timer held by a start bit taken (R131). -/
def Timer.hold : Timer → Timer
  | .running n => .held n
  | t => t

/-- A character passed to frame assembly (R126, R129): a start mark begins a frame, an end mark closes one, and any
other character inside a frame is collected; the 32nd unescaped byte discards the frame at that moment. -/
def State.assemble (l : LineNo) (t : Txn) (c : Byte) (err : Bool) (s : State) : State :=
  let heard (a : Option Assembly) : State :=
    s.modLine l (fun ln =>
      { ln with timer := ln.timer.hold, rx := { ln.rx with mode := .reading, frame := a, busy := true, gap := 0 } })
  match (s.line l).rx.frame with
  | none => if !err && c == 0xC5 then heard (some .start) else heard none
  | some a =>
    if !err && c == 0xC5 then heard (some .start)
    else if !err && c == 0xCA then (heard (some a)).closeFrame l t a
    else
      let b := a.add c err
      if 31 < b.bytes.length then (heard none).discard l t else heard (some b)

/-- The sample clocks the receiver may wait for the next falling edge: the time left on the turnaround timer before a
character has come, 4 character times after one (R129, R131). An edge at the clock the timer runs out at comes too late (log
45). -/
def Line.inTime (ln : Line) (wait : Nat) : Bool :=
  if ln.rx.busy then decide (ln.rx.gap + wait ≤ 4 * charTime ln.rx.bitLength)
  else
    match ln.timer with
    | .running n => decide (wait < n)
    | _ => false

/-- A falling edge while the receiver reads (R126): high at half a bit length it is a false start, ignored while the
timer or the gap runs on; low, the character is taken, sampled and passed on. -/
def State.readCharacter (l : LineNo) (t : Txn) (wait : Nat) (wave : Wave) (s : State) : State :=
  let ln := s.line l
  let n := ln.rx.bitLength
  if !ln.inTime wait then s
  else if !lowAt wave (samplePoint n 0) then
    s.modLine l (fun ln =>
      { ln with
        timer := (match ln.timer with | .running m => .running (m - wait) | x => x)
        rx := if ln.rx.busy then { ln.rx with gap := ln.rx.gap + wait } else ln.rx })
  else s.assemble l t (sampleByte n wave) (framingError n wave)

/-- The classified lead character of a hunt's answer (R146): no half-bit check; a framing error in it discards the
frame. -/
def State.leadCharacter (l : LineNo) (t : Txn) (wave : Wave) (s : State) : State :=
  let n := (s.line l).rx.bitLength
  if framingError n wave then s.discard l t else s.assemble l t (sampleByte n wave) false

/-- A character arrives on a line's pair. The receiver is enabled while an attempt is LISTENING (R125); in measuring
mode the falling edge is measured instead (R144). -/
def State.character (l : LineNo) (wait : Nat) (wave : Wave) (s : State) : State :=
  let ln := s.line l
  match ln.activity, ln.out with
  | .listening, some t =>
    match ln.rx.mode with
    | .measuring => s
    | .lead => s.leadCharacter l t wave
    | .reading => s.readCharacter l t wait wave
  | _, _ => s

/-- The character that a waveform holds closes the frame being assembled: an end mark, taken in time, with no framing
error. -/
def Line.closes (ln : Line) (wait : Nat) (wave : Wave) : Bool :=
  let n := ln.rx.bitLength
  ln.activity == .listening && ln.rx.mode == .reading && ln.rx.frame.isSome && ln.inTime wait
    && lowAt wave (samplePoint n 0) && sampleByte n wave == 0xCA && !framingError n wave

end Sys2Proof.Machine
end

