-- ==== Sys2Proof/Machine/Port.lean ====
section
/-! DEFINITION. The port family: SPI operations, port controls, what the taking of a request does, and the two resets
(spec/09_request_port_and_queues.md, R167 to R181; spec/10_attention.md, R186, R187; R25). -/
namespace Sys2Proof.Machine
open Sys2Proof

/-- The outcome of a command: every command of the part has a next state. -/
abbrev Result := Host.Outcome State Fault Refusal

/-- FULL RESET (R181, R25, R122, R118, R188): every block takes its full-reset value, and an SPI transaction in progress
is abandoned. The commands still to come and the free-value counter are not the part's. -/
def State.fullReset (s : State) : State := { State.reset with pending := s.pending, free := s.free }

/-- FULL_RESET. -/
def execFullReset (s : State) : Result := .next s.fullReset

/-! ### SPI operations (R167) -/

/-- A transaction as CSn falls: the port summary is taken as the part stands (R167). -/
def State.newTxn (s : State) : SpiTxn := ⟨none, s.portSummary, [], false, false⟩

/-- The transaction that CSn has begun, or one that begins now. -/
def State.heldTxn (s : State) : SpiTxn := s.port.txn.getD s.newTxn

/-- CSn falls, where no transaction is in progress (R167). -/
def State.selectPort (s : State) : State :=
  if s.port.txn.isNone then { s with port := ⟨some s.newTxn, []⟩ } else s

/-- CSn falls while RESETn is low: low, RESETn holds every block at its full-reset value, and the transaction is ignored
to its end, past RESETn's rise as well (R181, log 41). -/
def State.selectInReset (s : State) : State :=
  { s.fullReset with port := ⟨some ⟨none, 0, [], false, true⟩, []⟩ }

/-- An operation byte may be decoded: no transaction in progress has its own yet (R167). -/
def State.canDecode (s : State) : Bool := s.port.txn.all (fun t => t.op.isNone)

/-- The transaction with its operation byte decoded, which is when the bytes to send are fixed (R167, R169, R170). -/
def State.openTxn (op : Byte) (fix : State → List Byte × Bool) (s : State) : SpiTxn :=
  let t := s.heldTxn
  if t.ignored then { t with op := some op } else { t with op := some op, out := (fix s).1, head := (fix s).2 }

/-- The bytes clocked out by a transaction at its end, the summary first. -/
def State.clocked (t : SpiTxn) (tail : List Byte) (s : State) : State :=
  { s with port := ⟨none, t.summary :: t.out ++ tail⟩ }

/-- The end of an ignored transaction of a number of bytes: no effect, and what SDO showed is free (R181, log 9). -/
def State.endIgnored (bytes : Nat) (s : State) : State :=
  { s with port := ⟨none, (List.range bytes).map (Config.ignoredByte s.free)⟩, free := s.free + 1 }

/-- The end of a transaction: its effect, or none where it is ignored (R181). -/
def State.endTxn (t : SpiTxn) (following : Nat) (finish : SpiTxn → State → State) (s : State) : State :=
  if t.ignored then s.endIgnored (1 + following) else finish t s

/-- An SPI operation with a number of following bytes: whole, or CSn's fall, or its operation byte decoded, or its end
(log 1). While a transaction is in progress no other can begin. -/
def spiOperation (part : SpiPart) (op : Byte) (following : Nat) (fix : State → List Byte × Bool)
    (finish : SpiTxn → State → State) (s : State) : State :=
  match part with
  | .whole => if s.canDecode then s.endTxn (s.openTxn op fix) following finish else s
  | .selects => s.selectPort
  | .inReset => s.selectInReset
  | .begins =>
    if s.canDecode then
      let t := s.openTxn op fix
      { s with port := ⟨some t, if t.ignored then [] else [t.summary]⟩ }
    else s
  | .ends =>
    match s.port.txn with
    | some t => if t.op = some op then s.endTxn t following finish else s
    | none => s

/-- A write clocks out 00H for every byte that follows (R167). -/
def zerosFor (n : Nat) (_ : State) : List Byte × Bool := (List.replicate n 0, false)

/-- The record joins the tail of the queue when the queue is RUNNING and not full; otherwise it is discarded (R168). -/
def State.acceptRequest (r : RawRequest) (s : State) : State :=
  if !s.engine.stopped && decide (s.engine.queue.length < 16) then
    { s with engine := { s.engine with queue := s.engine.queue ++ [r] } }
  else s

/-- WRITE REQUEST (R168). -/
def execWriteRequest (part : SpiPart) (record : RawRequest) (extra : Nat) (s : State) : Result :=
  .next (spiOperation part 0x01 (32 + extra) (zerosFor 32)
    (fun t s => (s.acceptRequest record).clocked t (List.replicate extra 0)) s)

/-- The record READ COMPLETION sends: the head with its more indication, or the none record (R169). -/
def headBytes (s : State) : List Byte × Bool :=
  match s.engine.completions with
  | [] => (List.replicate 40 0, false)
  | c :: l => (c.bytes (!l.isEmpty), true)

/-- The head leaves the completion queue, and the room is an event for posting (R169, R178). -/
def State.dropHead (s : State) : State :=
  ({ s with engine := { s.engine with completions := s.engine.completions.tail } } : State).posting none

/-- READ COMPLETION (R169). -/
def execReadCompletion (part : SpiPart) (extra : Nat) (s : State) : Result :=
  .next (spiOperation part 0x02 (40 + extra) headBytes
    (fun t s => (if t.head then s.dropHead else s).clocked t (List.replicate extra 0)) s)

/-- READ STATUS (R170): every byte past the sixteenth is 00H, as no layout assigns it (R189). -/
def execReadStatus (part : SpiPart) (extra : Nat) (s : State) : Result :=
  .next (spiOperation part 0x03 (16 + extra) (fun s => (s.statusBytes, false))
    (fun t s => s.clocked t (List.replicate extra 0)) s)

/-- An undefined operation byte: ignored, 00H clocked out for every further byte (R167). -/
def execSpiUnknownOperation (op : Byte) (following : Nat) (s : State) : Result :=
  .next (if (spiLength op).isNone && s.canDecode then
    s.endTxn (s.openTxn op (fun _ => ([], false))) following
      (fun t s => s.clocked t (List.replicate following 0))
    else s)

/-- The bytes an operation has to send: those of a read, 00H for a write. -/
def spiOut (op : Byte) (s : State) : List Byte × Bool :=
  if op = 0x02 then headBytes s else if op = 0x03 then (s.statusBytes, false) else (List.replicate 32 0, false)

/-- A transaction cut short after its operation byte: what was clocked out, and no effect (R167 to R171). -/
def State.cutTxn (t : SpiTxn) (following : Nat) (s : State) : State :=
  s.endTxn t following (fun t s => s.clocked { t with out := t.out.take following } [])

/-- CSn rises early (R167 to R171): the transaction ends with no effect, a partial record or control is discarded and
the head completion stays. -/
def execCsnRiseEarly (op : Option Byte) (following : Nat) (s : State) : Result :=
  .next (match s.heldTxn.op, op with
    | some b, _ => if cutShort (some b) following then s.cutTxn s.heldTxn following else s
    | none, some b => if cutShort (some b) following then s.cutTxn (s.openTxn b (spiOut b)) following else s
    | none, none =>
      if cutShort none following then { s with port := ⟨none, []⟩ } else s)

/-! ### Port controls (R171) -/

/-- A WRITE CONTROL whose operation has an effect. -/
def control (c : Control) (effect : State → State) (s : State) : State :=
  spiOperation c.part 0x04 (4 + c.extra) (zerosFor 4) (fun t s => (effect s).clocked t (List.replicate c.extra 0)) s

/-- The Attention Unit changed. -/
def State.modAttention (g : Attention → Attention) (s : State) : State := { s with attention := g s.attention }

/-- ARM (R186). -/
def execArm (c : Control) (s : State) : Result :=
  .next (control c (fun s => s.modAttention (·.arm s.now)) s)

/-- ACK (R187). -/
def execAck (c : Control) (s : State) : Result :=
  .next (control c (fun s => s.modAttention (·.ack c.causes)) s)

/-- SOFT (R187). -/
def execSoft (c : Control) (s : State) : Result := .next (control c (State.raise .soft) s)

/-- RESTART QUEUE (R174): a STOPPED queue becomes RUNNING and the recorded previous status OK. -/
def State.restartQueue (s : State) : State :=
  if s.engine.stopped then { s with engine := { s.engine with stopped := false, previous := .ok } } else s

/-- RESTART QUEUE. -/
def execRestartQueue (c : Control) (s : State) : Result := .next (control c State.restartQueue s)

/-- FLUSH QUEUE (R174): every record leaves the request queue, whatever its state. -/
def State.flushQueue (s : State) : State := { s with engine := { s.engine with queue := [], previous := .ok } }

/-- FLUSH QUEUE. -/
def execFlushQueue (c : Control) (s : State) : Result := .next (control c State.flushQueue s)

/-- The batch under a field reset (R118): PENDING entries FLUSHED, IN_MOVE entries ABORTED, the batch ends ABORTED. -/
def State.fieldResetBatch (s : State) : State :=
  match s.batch.state with
  | .empty | .staging | .ended => s
  | .running | .settling | .cancelling =>
    (s.modBatch (fun b =>
      { b.flushPending with
        entries := b.flushPending.entries.map (fun e =>
          if e.result = .inMove then { e with result := .aborted } else e) })).batchEnd .aborted

/-- A balancer under a field reset (R98): CALM unless OFF, then re-evaluated. -/
def Feeder.fieldReset (f : Feeder) (now : Nat) : Feeder :=
  match f.state with
  | .off => f
  | _ => f.calm.reevaluate now

/-- Every feeder changed. -/
def mapFeeders (g : Feeder → Feeder) (v : Vector Feeder 8) : Vector Feeder 8 := ⟨⟨v.toList.map g⟩, by simp⟩

/-- FIELD RESET (R180, R25, R98, R118, R122, R158, R57): both lines stopped, the batch ended, the balancers CALM, the
survey off, the waiting list emptied, and a record operation claimed. An operation in progress completes first,
but what it hands the balancers and the batch is not applied (R98, R118). -/
def State.fieldReset (s : State) : State :=
  let t := ((s.newMoment.stopLine 0).stopLine 1).fieldResetBatch
  let t := { t with
    feeders := mapFeeders (fun f => f.fieldReset t.now) t.feeders
    survey := { t.survey with enable := false, timer := none }
    sched := { t.sched with waitingList := [] }
    store := { t.store with inProgress := t.store.inProgress.map (fun (v : Service) => { v with overtaken := true }) } }
  (t.claim .fieldReset).posting none

/-- FIELD RESET. -/
def execFieldReset (c : Control) (s : State) : Result := .next (control c State.fieldReset s)

/-- A control operation code that names none of the six: ignored, no effect (R171). -/
def execUnknownControlOperation (code : Byte) (c : Control) (s : State) : Result :=
  .next (if knownControl code then s else control c id s)

/-! ### The taking of a request (R172) -/

/-- No READY entry waits for room. -/
def Engine.noneReady (e : Engine) : Bool := e.parked.toList.all (fun o => !o.any (fun p => p.ready.isSome))

/-- The lowest-numbered free parked entry (R177). -/
def Engine.freeEntry (e : Engine) : Option ParkNo :=
  (e.parked.toList.findIdx? (fun o => o.isNone)).map (Fin.ofNat 8)

/-- The conditions of R172 for taking a request at the head of the queue. -/
def Engine.mayTake (e : Engine) (raw : RawRequest) : Bool :=
  !e.stopped && e.inService.isNone && e.noneReady && decide (e.completions.length < 16)
    && (!mayPark raw || e.freeEntry.isSome)

/-- The result area of a request no block served: its handle field where the kind names a record (R179). -/
def unservedArea (raw : RawRequest) : List Byte :=
  match reqKind raw with
  | some k => if k.namesRecord then reqHandleBytes raw else []
  | none => []

/-- A request is flushed: chained behind a status other than OK (R175). -/
def Engine.flushes (e : Engine) (raw : RawRequest) : Bool := reqChain raw && e.previous != .ok

/-- A request is taken and handed to a block: it may be taken, and passes the malformation and CHAIN tests (R172). -/
def Engine.handsOver (e : Engine) (raw : RawRequest) : Bool := e.mayTake raw && !malformed raw && !e.flushes raw

/-- The request at the head in service with its reservations (R172). -/
def State.intoService (raw : RawRequest) (rest : List RawRequest) (s : State) : State :=
  let entry := if mayPark raw then s.engine.freeEntry else none
  { s.newMoment with engine := { s.engine with queue := rest, inService := some ⟨raw, entry⟩ } }

/-- A request served directly is served as it is handed over (R172). -/
def State.takeDirect (body : Body) (raw : RawRequest) (rest : List RawRequest) (s : State) : State :=
  let t := s.intoService raw rest
  t.answerRequest body ⟨raw, none⟩ t.time.count

/-- A kind served directly by its block: the head of the queue, where it is of the kind and is taken and handed over, is
served in the same moment (R172, log 40). -/
def serveDirect (k : ReqKind) (body : Body) (s : State) : State :=
  match s.engine.queue with
  | raw :: rest => if s.engine.handsOver raw && reqKind raw == some k then s.takeDirect body raw rest else s
  | [] => s

/-- A request taken from the head (R172, R173, R175): malformed, it completes MALFORMED and stops the queue; chained
behind a status other than OK, it completes FLUSHED; otherwise it is handed to the block that serves its kind, where it
is served at once or, at the Record Store, claims it. -/
def State.takeRequest (direct : ReqKind → Option Body) (raw : RawRequest) (rest : List RawRequest) (s : State) : State :=
  let t := { s.newMoment with engine := { s.engine with queue := rest } }
  if malformed raw then
    (({ t with engine := { t.engine with stopped := true } } : State).completeNow raw .malformed
      (unservedArea raw)).raise .queueStopped
  else if s.engine.flushes raw then t.completeNow raw .flushed (unservedArea raw)
  else
    match (reqKind raw).bind direct with
    | some body => s.takeDirect body raw rest
    | none => (s.intoService raw rest).claim .request

/-- The record side of a field reset (R25): every QUEUED move ends ABORTED with its target removed, then every target
is removed; parked WAITs complete ABORTED (R28). A move's end writes the last move result, as R73 has every move end do
(log 35). -/
def State.fieldResetRecords (stamp : Word32) (s : State) : State :=
  let t := (s.moves.filter (fun p => !p.2.inFlight)).foldl
    (fun s p => s.endMove p.1 (.aborted false .aborted) stamp) s
  let holders := (t.indexed.filter (fun p => p.1.target.isSome)).map (·.2)
  holders.foldl (fun s i => s.dropTarget i .aborted .aborted) t

/-- FIELD RESET RECORD OPERATION. -/
def execFieldResetRecordOperation (part : Part) (s : State) : Result :=
  .next (serveClaim part (· == .fieldReset) (fun v t => t.operate (State.fieldResetRecords v.stamp)) s)

end Sys2Proof.Machine
end

