-- ==== Sys2Proof/Machine/Claims.lean ====
section
/-! DEFINITION. The Record Store operations claimed by other blocks: slot-free service, move ends without an answer, and
hunt failure bookkeeping (R58, R69, R77, R79, R139, R149). -/
namespace Sys2Proof.Machine
open Sys2Proof

/-- SLOT FREE SERVICE (R58). -/
def execSlotFreeService (part : Part) (s : State) : Result :=
  .next (serveClaim part (· == .slotFree) (fun _ t => t.operate State.serveSlotFree) s)

/-- The move in a slot is CHECKING. -/
def State.slotChecking (s : State) (k : SlotNo) : Bool := (s.slot k).any (fun m => m.state == .checking)

/-- CHECK EXHAUSTION END (R69, R77): the move ends LOST while the slot still holds it in CHECKING. -/
def execCheckExhaustionEnd (part : Part) (k : SlotNo) (s : State) : Result :=
  .next (serveClaim part
    (fun c => match c with | .checkExhausted x _ _ => x == k | _ => false)
    (fun v t =>
      match v.work with
      | .claim (.checkExhausted _ h q) =>
        if t.holdsMove k h q && t.slotChecking k then t.operate (fun s => s.endWith k .lost v.stamp) else t
      | _ => t) s)

/-- LINE STOP LOST END (R77, R79): the closed move ends LOST while the slot still holds it. -/
def execLineStopLostEnd (part : Part) (k : SlotNo) (s : State) : Result :=
  .next (serveClaim part
    (fun c => match c with | .lineStopLost x _ _ => x == k | _ => false)
    (fun v t =>
      match v.work with
      | .claim (.lineStopLost _ h q) =>
        if t.holdsMove k h q then t.operate (fun s => s.endWith k .lost v.stamp) else t
      | _ => t) s)

/-- A hunt end of a record still takes effect: the generation is the bound one and the record PROVISIONAL (R139,
R149). -/
def State.stillHunted (s : State) (h : Handle) : Bool :=
  (s.record h.index).generation == h.generation && (s.record h.index).state == .provisional

/-- The record after a counted failure (R149). -/
def Record.huntFailed (r : Record) (reason : HuntResult) (again : Nat) : Record :=
  let n := r.huntFailures + 1
  if n < 3 then { r with lastHunt := some reason, huntFailures := n, huntDue := some again }
  else
    { r with
      lastHunt := some reason, huntFailures := n, huntDue := none, notices := { r.notices with noContact := true } }

/-- A counted hunt failure (R149, R151). -/
def State.countFailure (h : Handle) (reason : HuntResult) (s : State) : State :=
  if s.stillHunted h then
    let r := s.record h.index
    let again := s.now + tenths (s.line (s.lineOfRecord h.index)).huntInterval
    let x := r.huntFailed reason again
    ((s.setRecord h.index x).raiseIf (decide (3 ≤ x.huntFailures)) .unitEvent).completeContact h .huntFailed
      [byteOf reason.code, byteOf x.huntFailures]
  else s

/-- HUNT FAILURE BOOKKEEPING (R146, R149). -/
def execHuntFailureBookkeeping (part : Part) (i : RecIdx) (s : State) : Result :=
  .next (serveClaim part
    (fun c => match c with | .huntFailure h _ => h.index == i | _ => false)
    (fun v t =>
      match v.work with
      | .claim (.huntFailure h reason) => t.operate (State.countFailure h reason)
      | _ => t) s)

/-- An uncounted hunt end (R139): hunt due now, an event for the line's pick. -/
def State.uncountedEnd (h : Handle) (s : State) : State :=
  if s.stillHunted h then
    (s.modRecord h.index (fun r => { r with huntDue := some s.now })).pickEvent (s.lineOfRecord h.index)
  else s

/-- UNCOUNTED HUNT END. -/
def execUncountedHuntEnd (part : Part) (i : RecIdx) (s : State) : Result :=
  .next (serveClaim part
    (fun c => match c with | .uncountedHunt h => h.index == i | _ => false)
    (fun v t =>
      match v.work with
      | .claim (.uncountedHunt h) => t.operate (State.uncountedEnd h)
      | _ => t) s)

end Sys2Proof.Machine
end

