-- ==== Sys2Proof/Machine/Records.lean ====
section
/-! DEFINITION. The record requests: CREATE, FIND, READ, AMEND, SET PHASE, CANCEL MOVE, HOLD, RELEASE, CLEAR FAULT,
CLEAR NOTICES, CONTACT and RETIRE (spec/02_record_requests.md, R26 to R51; R7 to R9, R17, R20, R21; R151). -/
namespace Sys2Proof.Machine
open Sys2Proof

/-- A request on a record: the handle is tested first (R2, R26). -/
def onRecord (g : RecIdx → Body) : Body := fun raw stamp s =>
  if s.names (reqHandle raw) then g (reqHandle raw).index raw stamp s else refuse raw .staleHandle s

/-- A record request completes OK with its handle and the values its rule lists (R26). -/
def okWith (raw : RawRequest) (rest : List Byte) (s : State) : State × Reply :=
  (s, .complete .ok (reqHandleBytes raw ++ rest))

/-! ### CREATE (R31, R32, R7) -/

/-- The generation after a creation: 255 advances to 1 (R1). -/
def nextGeneration (g : Byte) : Byte := if g = 255 then 1 else g + 1

/-- A byte or half-word advanced past its highest value goes to 1, never 0 (R55). -/
def nextSequence (q : Byte) : Byte := if q = 255 then 1 else q + 1

/-- A record that is not VACANT holds the service key (R31). -/
def State.keyTaken (s : State) (key : Word32) : Bool :=
  s.store.table.toList.any (fun r => r.state != .vacant && r.serviceKey == key)

/-- A record that is not VACANT, on a feeder served by the same line, holds the unit address (R31). -/
def State.addressTaken (s : State) (l : LineNo) (address : Word16) : Bool :=
  s.store.table.toList.any (fun r => r.state != .vacant && r.unitAddress == address && (s.feeder r.feeder).line == l)

/-- The record a CREATE writes (R7, R31): its parameters, the advanced generation, hunt due now. -/
def createdRecord (raw : RawRequest) (g : Byte) (now : Nat) : Record :=
  { Record.vacant g with
    state := .provisional
    serviceKey := BitVec.ofNat 32 (paramNat raw 0 4)
    feeder := feederOf (param raw 4)
    unitAddress := BitVec.ofNat 16 (paramNat raw 5 2)
    kind := if param raw 7 = 1 then .three else .single
    allowed := if param raw 7 = 1 then ⟨false, false, false⟩ else phaseSetOf (param raw 8)
    tag := param raw 9
    deadlineInterval := inRange 10 65535 (paramNat raw 10 2)
    dailyBudget := inRange 1 15 (param raw 12).toNat
    autoRestore := onOff (param raw 13)
    huntDue := some now }

/-- CREATE (R31, R32). -/
def bodyCreate : Body := fun raw _ s =>
  let f := feederOf (param raw 4)
  if !(s.feeder f).configured then refuse raw .feederUnconfigured s
  else if param raw 7 = 0 ∧ phaseSetEmpty (phaseSetOf (param raw 8)) then refuse raw .phaseNotAllowed s
  else if s.keyTaken (BitVec.ofNat 32 (paramNat raw 0 4)) then refuse raw .duplicateKey s
  else if s.addressTaken (s.feeder f).line (BitVec.ofNat 16 (paramNat raw 5 2)) then refuse raw .duplicateAddress s
  else
    match s.lowest (fun r _ => r.state == .vacant) with
    | none => refuse raw .tableFull s
    | some i =>
      let g := nextGeneration (s.record i).generation
      ((s.setRecord i (createdRecord raw g s.now)).pickEvent (s.feeder f).line,
        .complete .ok (handleBytes ⟨i, g⟩))

/-- CREATE. -/
def execCreate (part : Part) (s : State) : Result := .next (serveRequest part .create bodyCreate s)

/-! ### FIND (R33, R34) -/

/-- The conditions a record holds, as a FIND condition set (R33, 11.1). -/
def Record.conditions (r : Record) : List Bool :=
  [r.stale, r.fault.isSome, r.hold.isSome, r.move.isSome, r.state == .provisional, r.notices.restarted,
   r.notices.drifted, r.notices.noContact, r.notices.moveFailed]

/-- A record holds every condition of a set (R33). -/
def Record.meets (r : Record) (set : Nat) : Bool :=
  r.conditions.zipIdx.all (fun p => p.1 || !set.testBit p.2)

/-- The five criteria of FIND (R33). -/
def matchesFind (raw : RawRequest) (r : Record) (i : RecIdx) : Bool :=
  let keyMask := BitVec.ofNat 32 (paramNat raw 4 4)
  r.state != .vacant
    && r.serviceKey &&& keyMask == BitVec.ofNat 32 (paramNat raw 0 4) &&& keyMask
    && (param raw 8 == 255 || r.feeder.val == (param raw 8).toNat)
    && r.tag &&& param raw 10 == param raw 9 &&& param raw 10
    && r.meets (paramNat raw 11 2)
    && decide (paramNat raw 13 2 ≤ i.val)

/-- FIND (R34): the first match, its state and the count, or NOT_FOUND with count 0. -/
def bodyFind : Body := fun raw _ s =>
  let found := s.indexed.filter (fun p => matchesFind raw p.1 p.2)
  match found with
  | [] => (s, .complete .notFound [])
  | (r, i) :: _ =>
    (s, .complete .ok (handleBytes ⟨i, r.generation⟩ ++ [byteOf r.state.code] ++ be16 found.length))

/-- FIND. -/
def execFind (part : Part) (s : State) : Result := .next (serveRequest part .find bodyFind s)

/-! ### READ (R35, R190) -/

/-- READ: one view of the image, its times remaining from the moment the READ was served (R35). -/
def bodyRead (v : Service) : Body := onRecord fun i raw _ s =>
  let r := s.record i
  (s, .complete .ok (if bitOf (param raw 3) 0 then r.view1 i v.elapsed else r.view0 i))

/-- READ. -/
def execRead (part : Part) (s : State) : Result := .next (serveRequestWith part .read bodyRead s)

/-! ### AMEND (R36, R37, R17) -/

/-- The allowed-set tests of AMEND (R36). -/
def State.setConflicts (s : State) (i : RecIdx) (set : PhaseSet) : Bool :=
  let r := s.record i
  phaseSetEmpty set
    || (r.inService && r.phase.any (fun p => !set.get p))
    || r.target.any (fun t => !set.get t.phase)
    || (s.flyingMove i).any (fun p => !set.get p.2.toPhase)

/-- The deadline interval of a record amended (R17): the running deadline of an ACTIVE or RETIRING record that is not
stale is moved, and the record is stale at once when it has passed. The second part says whether it became
stale. -/
def Record.amendInterval (r : Record) (n now : Nat) : Record × Bool :=
  if r.inService && !r.stale && n != r.deadlineInterval then
    match r.deadlineDue with
    | some d =>
      let due := d + tenths n - tenths r.deadlineInterval
      if due ≤ now then ({ r with deadlineInterval := n, deadlineDue := none, stale := true }, true)
      else ({ r with deadlineInterval := n, deadlineDue := some due }, false)
    | none => ({ r with deadlineInterval := n }, false)
  else ({ r with deadlineInterval := n }, false)

/-- The record with every selected setting stored (R37), and whether it became stale. -/
def Record.amended (r : Record) (raw : RawRequest) (now : Nat) : Record × Bool :=
  let sel := param raw 3
  let x :=
    { r with
      allowed := if bitOf sel 0 then phaseSetOf (param raw 4) else r.allowed
      tag := if bitOf sel 1 then param raw 5 else r.tag
      dailyBudget := if bitOf sel 3 then inRange 1 15 (param raw 8).toNat else r.dailyBudget
      autoRestore := if bitOf sel 4 then onOff (param raw 9) else r.autoRestore }
  if bitOf sel 2 then x.amendInterval (inRange 10 65535 (paramNat raw 6 2)) now else (x, false)

/-- AMEND (R36, R37). Whether a moved deadline has passed (R17) is tested at the count the operation ends at (log 43). -/
def bodyAmend : Body := onRecord fun i raw _ s =>
  let r := s.record i
  let sel := param raw 3
  if bitOf sel 0 ∧ r.kind = .three then refuse raw .notMovable s
  else if bitOf sel 0 ∧ s.setConflicts i (phaseSetOf (param raw 4)) then refuse raw .phaseNotAllowed s
  else
    let x := r.amended raw s.now
    okWith raw [sel] ((s.setRecord i x.1).raiseIf x.2 .stale)

/-- AMEND. -/
def execAmend (part : Part) (s : State) : Result := .next (serveRequest part .amend bodyAmend s)

/-! ### SET PHASE (R38 to R41) -/

/-- A record's target set. -/
def State.setTarget (i : RecIdx) (t : Target) (s : State) : State :=
  s.modRecord i (fun r => { r with target := some t })

/-- The refusal tests of SET PHASE after the handle test, in order (R38). -/
def setPhaseRefusal (r : Record) (phase : Option Phase) (wait : Bool) : Option Status :=
  if r.state ≠ .active then some .notActive
  else if r.kind = .three then some .notMovable
  else if !phase.any (fun p => r.allowed.get p) then some .phaseNotAllowed
  else if r.fault.isSome then some .faulted
  else if r.dailyBudget ≤ r.dailyUsed then some .budgetSpent
  else if r.hold.isSome && wait then some .held
  else none

/-- The result of a record request that may leave a record waiting: QUEUED with the slot, or WAITING (R39, R46, R47). -/
def State.enqueueResult (s : State) (i : RecIdx) : ReqResult × Byte :=
  match (s.record i).move with
  | some k => (.queued, byteOf k.val)
  | none => (.waiting, 0)

/-- The rows of R39 for an accepted SET PHASE: the state, the result, the slot, and whether the target survives. -/
def setPhaseRows (i : RecIdx) (t : Target) (stamp : Word32) (s : State) : State × ReqResult × Byte × Bool :=
  let r := s.record i
  let set := (s.setTarget i t).completeWait (s.handleAt i) .superseded .aborted
  match s.flyingMove i with
  | some _ => (set, .follows, 0, true)
  | none =>
    if r.phase = some t.phase then
      match s.queuedMove i with
      | some (k, _) => (s.endMove k (.aborted false .superseded) stamp, .none, 0, false)
      | none => (s.dropTarget i .superseded .aborted, .none, 0, false)
    else
      match s.queuedMove i with
      | some (k, _) => (set.replaceMove k t, .queued, byteOf k.val, true)
      | none =>
        if r.hold.isSome then (set, .held, 0, true)
        else
          let u := set.tellWaiting i
          (u, (u.enqueueResult i).1, (u.enqueueResult i).2, true)

/-- SET PHASE (R38 to R41). -/
def bodySetPhase : Body := onRecord fun i raw stamp s =>
  let phase := phaseOf (param raw 3).toNat
  match setPhaseRefusal (s.record i) phase (reqWait raw), phase with
  | some st, _ => refuse raw st s
  | none, none => refuse raw .phaseNotAllowed s
  | none, some p =>
    let x := setPhaseRows i ⟨p, min (param raw 4).toNat 6, .host⟩ stamp s
    if reqWait raw && x.2.2.2 then (x.1, .park .targetRemoval (byteOf x.2.1.code) x.2.2.1)
    else okWith raw [byteOf x.2.1.code, x.2.2.1] x.1

/-- SET PHASE. -/
def execSetPhase (part : Part) (s : State) : Result := .next (serveRequest part .setPhase bodySetPhase s)

/-! ### CANCEL MOVE (R43) -/

/-- CANCEL MOVE. -/
def bodyCancelMove : Body := onRecord fun i raw stamp s =>
  let r := s.record i
  if r.state = .retiring then refuse raw .tooLate s
  else
    match s.flyingMove i, s.queuedMove i with
    | some _, _ => refuse raw .tooLate (s.dropTarget i .aborted .aborted)
    | none, some (k, _) =>
      okWith raw [byteOf ReqResult.aborted.code] (s.endMove k (.aborted false .aborted) stamp)
    | none, none =>
      if r.target.isSome then okWith raw [byteOf ReqResult.removed.code] (s.dropTarget i .aborted .aborted)
      else okWith raw [byteOf ReqResult.none.code] s

/-- CANCEL MOVE. -/
def execCancelMove (part : Part) (s : State) : Result := .next (serveRequest part .cancelMove bodyCancelMove s)

/-! ### HOLD and RELEASE (R45, R46, R21) -/

/-- HOLD. -/
def bodyHold : Body := onRecord fun i raw stamp s =>
  let t := s.modRecord i (fun r => { r with hold := some (param raw 3) })
  match s.flyingMove i, s.queuedMove i with
  | some _, _ => okWith raw [byteOf ReqResult.inFlight.code] t
  | none, some (k, _) => okWith raw [byteOf ReqResult.aborted.code] (t.endMove k (.aborted true .aborted) stamp)
  | none, none => okWith raw [byteOf ReqResult.none.code] t

/-- HOLD. -/
def execHold (part : Part) (s : State) : Result := .next (serveRequest part .hold bodyHold s)

/-- The end of a RELEASE or CLEAR FAULT that removed its field: a waiting record is told, and the result is QUEUED
with the slot or WAITING; otherwise NONE (R46, R47). -/
def afterRemoval (i : RecIdx) (raw : RawRequest) (s : State) : State × Reply :=
  if (s.record i).waiting then
    let t := s.tellWaiting i
    okWith raw [byteOf (t.enqueueResult i).1.code, (t.enqueueResult i).2] t
  else okWith raw [byteOf ReqResult.none.code, 0] s

/-- RELEASE (R46). -/
def bodyRelease : Body := onRecord fun i raw _ s =>
  if (s.record i).hold.isSome then afterRemoval i raw (s.modRecord i (fun r => { r with hold := none }))
  else okWith raw [byteOf ReqResult.none.code, 0] s

/-- RELEASE. -/
def execRelease (part : Part) (s : State) : Result := .next (serveRequest part .release bodyRelease s)

/-! ### CLEAR FAULT and CLEAR NOTICES (R47, R48) -/

/-- CLEAR FAULT (R47, R20). -/
def bodyClearFault : Body := onRecord fun i raw _ s =>
  if (s.record i).fault.isSome then afterRemoval i raw (s.modRecord i (fun r => { r with fault := none }))
  else okWith raw [byteOf ReqResult.none.code, 0] s

/-- CLEAR FAULT. -/
def execClearFault (part : Part) (s : State) : Result := .next (serveRequest part .clearFault bodyClearFault s)

/-- CLEAR NOTICES (R48). -/
def bodyClearNotices : Body := onRecord fun i raw _ s =>
  let left := (s.record i).notices.without (param raw 3)
  okWith raw [noticesByte left] (s.modRecord i (fun r => { r with notices := left }))

/-- CLEAR NOTICES. -/
def execClearNotices (part : Part) (s : State) : Result :=
  .next (serveRequest part .clearNotices bodyClearNotices s)

/-! ### CONTACT (R49, R8, R151, R153) -/

/-- A CONTACT of the record stands in the parked list (R27, R49, log 17). -/
def State.contactParked (s : State) (h : Handle) : Bool :=
  s.engine.parked.toList.any (fun o => o.any (Parked.isFor .contact h))

/-- The record a CONTACT leaves (R8, R49). -/
def Record.contacted (r : Record) (now : Nat) : Record :=
  { r with
    state := .provisional, rateClass := none, stale := false, deadlineDue := none, huntFailures := 0,
    huntDue := some now }

/-- CONTACT (R49): it parks when the record's line was RUNNING as it was served, and completes LINE_STOPPED at once
otherwise (R151, R153). A line halted between the serving and the end has no parked CONTACT to complete yet (log 36). -/
def bodyContact (v : Service) : Body := onRecord fun i raw _ s =>
  let r := s.record i
  if r.state = .retiring then refuse raw .notActive s
  else if r.move.isSome || s.contactParked (reqHandle raw) then refuse raw .busy s
  else
    let l := s.lineOfRecord i
    let t := ((s.dropTarget i .aborted .aborted).modRecord i (fun r => r.contacted s.now)).pickEvent l
    if v.lines[l] = .running then (t, .park .huntEnd 0 0) else refuse raw .lineStopped t

/-- CONTACT. -/
def execContact (part : Part) (s : State) : Result := .next (serveRequestWith part .contact bodyContact s)

/-! ### RETIRE (R9, R50, R51) -/

/-- RETIRE. -/
def bodyRetire : Body := onRecord fun i raw stamp s =>
  if (s.record i).state = .retiring then refuse raw .notActive s
  else
    match s.flyingMove i, s.queuedMove i with
    | some _, _ =>
      ((s.dropTarget i .aborted .aborted).modRecord i (fun r => { r with state := .retiring }), .park .vacant 0 0)
    | none, some (k, _) =>
      okWith raw [byteOf ReqResult.vacant.code] ((s.endMove k (.aborted false .aborted) stamp).vacate i)
    | none, none => okWith raw [byteOf ReqResult.vacant.code] (s.vacate i)

/-- RETIRE. -/
def execRetire (part : Part) (s : State) : Result := .next (serveRequest part .retire bodyRetire s)

end Sys2Proof.Machine
end

