-- ==== Sys2Proof/Machine/Answers.lean ====
section
/-! DEFINITION. The processing of answers by the Record Store: PRESENT, REPORT, ACCEPT, DECLINE and OUTCOME (R3, R6, R15,
R19; R65, R66, R70 to R72, R80 to R84; R147, R148; R163, R164). -/
namespace Sys2Proof.Machine
open Sys2Proof

/-- The handle an answer is bound to. -/
def Held.handle (h : Held) : Handle := ⟨h.binding.index, h.binding.generation⟩

/-- The generation of the bound record is the bound one (R3). -/
def State.bound (s : State) (h : Held) : Bool := (s.record h.binding.index).generation == h.binding.generation

/-- The slot and move an answer of a move is processed for: the record's move names the bound slot, the slot's
sequence number is the bound one, and the move is in a state (R3). -/
def State.boundMove (s : State) (h : Held) (st : MoveState) : Option (SlotNo × Move) :=
  match h.binding.slot with
  | some k =>
    match s.slot k with
    | some m =>
      if s.bound h ∧ (s.record h.binding.index).move = some k ∧ m.sequence = some h.binding.sequence ∧ m.state = st
      then some (k, m) else none
    | none => none
  | none => none

/-- Figures and stamps taken into a record (R6, R15). -/
def Record.reported (r : Record) (payload : List Byte) (stamp : Word32) (now : Nat) : Record :=
  (r.withFigures (payFigures payload)).stamped stamp now

/-- The record has a QUEUED move and its phase became known: an event for its line's pick (R61). -/
def State.phaseKnown (i : RecIdx) (before : Option Phase) (s : State) : State :=
  if before.isNone && (s.record i).phase.isSome && (s.queuedMove i).isSome then s.pickEvent (s.lineOfRecord i) else s

/-! ### PRESENT (R147, R148, R8) -/

/-- The kind field names the record's kind and the currents are in its form (R147). -/
def Record.presentFits (r : Record) (payload : List Byte) : Bool :=
  match r.kind with
  | .single => payByte payload 0 == 0 && !threeForm payload
  | .three => payByte payload 0 == 1 && threeForm payload

/-- The record a PRESENT takes into service (R148). -/
def Record.presented (r : Record) (h : Held) (stamp : Word32) (now : Nat) : Record :=
  { r.reported h.payload stamp now with
    state := .active
    rateClass := h.rateClass
    lastHunt := some .ok
    huntFailures := 0
    huntDue := none
    phase := if r.kind = .single then payPhase h.payload else r.phase }

/-- A PRESENT for a hunted record (R147, R148): a wrong kind is a counted failure, otherwise the record becomes ACTIVE,
the fault lands and a parked CONTACT completes. -/
def State.present (h : Held) (stamp : Word32) (s : State) : State :=
  let i := h.binding.index
  let r := s.record i
  if !r.presentFits h.payload then s.countFailure h.handle .kindMismatch
  else
    let t := s.setRecord i (r.presented h stamp s.now)
    (t.landFault i (payFigures h.payload).fault stamp).completeContact h.handle .ok
      [byteOf (match h.rateClass with | some c => c.val | none => 0)]

/-- PRESENT PROCESSING. -/
def execPresentProcessing (part : Part) (s : State) : Result :=
  .next (serveAnswer part fnPresent (fun h stamp t =>
    if t.stillHunted h.handle && h.binding.kind == .summon then t.operate (State.present h stamp) else t) s)

/-! ### REPORT (R163, R80 to R84) -/

/-- The tests of R82 that do not name X or Y apart. -/
def Record.restores (r : Record) (x y : Option Phase) : Option Phase :=
  match y with
  | some p =>
    if x ≠ some p ∧ r.state = .active ∧ r.autoRestore = true ∧ r.hold = none ∧ r.fault = none
        ∧ r.allowed.get p = true
    then some p else none
  | none => none

/-- A record restored (R82): target, a parked WAIT superseded, and the QUEUED move re-placed or a move enqueued. -/
def State.restore (i : RecIdx) (p : Phase) (s : State) : State :=
  let target : Target := ⟨p, 7, .restore⟩
  let t := (s.setTarget i target).completeWait (s.handleAt i) .superseded .aborted
  match t.queuedMove i with
  | some (k, _) => t.replaceMove k target
  | none => t.tellWaiting i

/-- A restart report of a SINGLE record (R80 to R82), with Y the phase recorded before. Where it does not restore, a
RESTORE target of an earlier restart is kept as any other target is, with its QUEUED move (log 44). -/
def State.restartSingle (i : RecIdx) (x : Option Phase) (stamp : Word32) (s : State) : State :=
  let y := (s.record i).phase
  let t := (s.modRecord i (fun r => { r with phase := x, notices := { r.notices with restarted := true } })).raise
    .unitEvent
  let back := (t.record i).restores x y
  let t :=
    match t.flyingMove i with
    | some (k, _) => t.endMove k ⟨.lost, none, false, if back.isSome then .superseded else .moveFailed⟩ stamp
    | none => t
  match back with
  | some p => t.restore i p
  | none => t

/-- A REPORT without the restarted flag for a SINGLE record with no move in flight (R83). -/
def State.drift (i : RecIdx) (x : Option Phase) (s : State) : State :=
  match (s.record i).phase, x with
  | some p, some q =>
    if p = q then s
    else (s.modRecord i (fun r => { r with phase := some q, notices := { r.notices with drifted := true } })).raise
      .unitEvent
  | none, some q => s.modRecord i (fun r => { r with phase := some q })
  | _, none => s

/-- The phase step of a REPORT (R163 step 4, R166). -/
def State.reportPhase (i : RecIdx) (payload : List Byte) (stamp : Word32) (s : State) : State :=
  let restarted := bitOf (payByte payload 0) 0
  match (s.record i).kind with
  | .three =>
    if restarted then
      (s.modRecord i (fun r => { r with notices := { r.notices with restarted := true } })).raise .unitEvent
    else s
  | .single =>
    if restarted then s.restartSingle i (payPhase payload) stamp
    else if (s.flyingMove i).isNone then s.drift i (payPhase payload)
    else s

/-- A REPORT of the right form (R163): figures, stamps, fault, phase, target reached. -/
def State.report (h : Held) (stamp : Word32) (s : State) : State :=
  let i := h.binding.index
  let before := (s.record i).phase
  let t := s.setRecord i ((s.record i).reported h.payload stamp s.now)
  let t := (t.landFault i (payFigures h.payload).fault stamp).reportPhase i h.payload stamp
  (t.targetReached i stamp).phaseKnown i before

/-- The binding test and the form test of a REPORT (R3, R164). -/
def State.reportFits (s : State) (h : Held) : Bool :=
  let r := s.record h.binding.index
  s.bound h && r.inService && (threeForm h.payload == (r.kind == .three))

/-- REPORT PROCESSING. -/
def execReportProcessing (part : Part) (s : State) : Result :=
  .next (serveAnswer part fnReport (fun h stamp t =>
    if t.reportFits h then t.operate (State.report h stamp) else t) s)

/-! ### ACCEPT (R65) -/

/-- The confirm delay of a record's line, started now (R65, R72). -/
def State.confirmAt (s : State) (i : RecIdx) : Nat := s.now + (s.line (s.lineOfRecord i)).confirmDelay

/-- An ACCEPT makes the move SWITCHING and starts the confirm delay. -/
def State.accept (k : SlotNo) (m : Move) (s : State) : State :=
  s.setSlot k (some { m with state := .switching, confirmDue := some (s.confirmAt m.index) })

/-- ACCEPT PROCESSING. -/
def execAcceptProcessing (part : Part) (s : State) : Result :=
  .next (serveAnswer part fnAccept (fun h _ t =>
    match t.boundMove h .offered with
    | some (k, m) => t.operate (State.accept k m)
    | none => t) s)

/-! ### DECLINE (R66) -/

/-- The reason WRONG_FROM (11.5). -/
def declineWrongFrom : Byte := 4

/-- The present phase taken from a WRONG_FROM (R66 step 1). -/
def State.wrongFrom (i : RecIdx) (x : Option Phase) (s : State) : State :=
  if x.isSome ∧ x ≠ (s.record i).phase then
    (s.modRecord i (fun r => { r with phase := x, notices := { r.notices with drifted := true } })).raise .unitEvent
  else s

/-- A DECLINE ends the move (R66). -/
def State.decline (h : Held) (k : SlotNo) (m : Move) (stamp : Word32) (s : State) : State :=
  let i := m.index
  let t :=
    if payByte h.payload 0 = declineWrongFrom then
      let t := s.wrongFrom i (payPhase h.payload)
      if (t.record i).phase = some m.toPhase then t.endWith k .already stamp else t.endWith k .declined stamp
    else s.endWith k .declined stamp
  t.targetReached i stamp

/-- DECLINE PROCESSING. -/
def execDeclineProcessing (part : Part) (s : State) : Result :=
  .next (serveAnswer part fnDecline (fun h stamp t =>
    match t.boundMove h .offered with
    | some (k, m) => t.operate (State.decline h k m stamp)
    | none => t) s)

/-! ### OUTCOME (R70 to R72) -/

/-- An IN_PROGRESS (R72): the fourth ends the move LOST, an earlier one returns it to SWITCHING. -/
def State.stillSwitching (k : SlotNo) (m : Move) (stamp : Word32) (s : State) : State :=
  let n := m.inProgressSeen + 1
  if 4 ≤ n then (s.setSlot k (some { m with inProgressSeen := n })).endWith k .lost stamp
  else
    s.setSlot k (some
      { m with inProgressSeen := n, state := .switching, resolve := false, confirmDue := some (s.confirmAt m.index) })

/-- What an OUTCOME's status does (R71, R72, R78): 1 DONE, 2 IN_PROGRESS, 3 RESTORED_BACK, 4 UNSUPPLIED, 5
UNKNOWN_SEQUENCE (11.5). -/
def State.outcomeStatus (status : Nat) (k : SlotNo) (m : Move) (stamp : Word32) (s : State) : State :=
  match status with
  | 1 => (s.endWith k .done stamp).tellWaiting m.index
  | 2 => s.stillSwitching k m stamp
  | 3 => s.endWith k .restoredBack stamp
  | 4 => s.endWith k .unsupplied stamp
  | 5 => if m.resolve then s.endWith k .noAnswer stamp else s.endWith k .lost stamp
  | _ => s.endWith k .lost stamp

/-- An OUTCOME (R70): figures and stamps, fault, status, target reached. -/
def State.outcome (h : Held) (k : SlotNo) (m : Move) (stamp : Word32) (s : State) : State :=
  let i := m.index
  let t := s.setRecord i ((s.record i).reported h.payload stamp s.now)
  let t := t.landFault i (payFigures h.payload).fault stamp
  (t.outcomeStatus (payByte h.payload 0).toNat k m stamp).targetReached i stamp

/-- OUTCOME PROCESSING. -/
def execOutcomeProcessing (part : Part) (s : State) : Result :=
  .next (serveAnswer part fnOutcome (fun h stamp t =>
    match t.boundMove h .checking with
    | some (k, m) => t.operate (State.outcome h k m stamp)
    | none => t) s)

end Sys2Proof.Machine
end

