-- ==== Sys2Proof/Machine/Balance.lean ====
section
/-! DEFINITION. The Balance Unit: CONFIGURE FEEDER, READ SHEET, the persistence timer and the balancer's selection
(spec/04_feeder_balance.md, R85 to R102). -/
namespace Sys2Proof.Machine
open Sys2Proof

/-! ### CONFIGURE FEEDER (R86, R87, R96, R97) -/

/-- A record on a feeder that is not VACANT (R86). -/
def State.feederInUse (s : State) (f : FeederNo) : Bool :=
  s.store.table.toList.any (fun r => r.state != .vacant && r.feeder == f)

/-- The settings of a request, brought into range, and the feeder marked configured (R86). -/
def Feeder.configure (x : Feeder) (raw : RawRequest) : Feeder :=
  { x with
    configured := true
    line := lineNoOf (param raw 1)
    inFlightLimit := inRange 1 4 (param raw 2).toNat
    coolDown := inRange 10 3600 (paramNat raw 3 2)
    threshold := paramNat raw 5 2
    persistence := inRange 10 3600 (paramNat raw 7 2)
    enable := onOff (param raw 9)
    priority := min (param raw 10).toNat 6 }

/-- The balancer OFF: timer stopped, no mark (R96). -/
def Feeder.off (x : Feeder) : Feeder := { x with state := .off, timer := none, selectionPending := false }

/-- The balancer after its settings were stored: a requested enable off gives OFF, off to on gives CALM, and the
state is re-evaluated against the present spread with the new threshold (R87, R96, R97). -/
def Feeder.settled (x : Feeder) (before : Bool) (now : Nat) : Feeder :=
  if !x.enable then x.off else if !before then x.calm.reevaluate now else x.reevaluate now

/-- The QUEUED moves of present origin BALANCER on a feeder (R96). -/
def State.balancerMoves (s : State) (f : FeederNo) : List (SlotNo × Move) :=
  s.moves.filter (fun p => !p.2.inFlight && p.2.origin == .balancer && (s.record p.2.index).feeder == f)

/-- The settings of a feeder, laid out as CONFIGURE FEEDER offsets 0 to 10 (11.3). -/
def Feeder.settings (x : Feeder) (f : FeederNo) : List Byte :=
  [byteOf f.val, byteOf x.line.val, byteOf x.inFlightLimit] ++ be16 x.coolDown ++ be16 x.threshold
    ++ be16 x.persistence ++ [boolByte x.enable, byteOf x.priority]

/-- CONFIGURE FEEDER. A requested enable off ends the feeder's QUEUED moves of origin BALANCER, also when the balancer
was OFF already (R96, log 19). A raised in-flight limit is an event for the line's pick (R61). -/
def bodyConfigureFeeder : Body := fun raw stamp s =>
  let f := feederOf (param raw 0)
  let x := s.feeder f
  if x.configured && x.line != lineNoOf (param raw 1) && s.feederInUse f then refuse raw .recordsPresent s
  else
    let y := x.configure raw
    let t := s.modFeeder f (fun x => (x.configure raw).settled x.enable s.now)
    let t := if y.enable then t
      else (s.balancerMoves f).foldl (fun t p => t.endMove p.1 (.aborted false .aborted) stamp) t
    let t := if x.inFlightLimit < y.inFlightLimit then t.pickEvent y.line else t
    (t, .complete .ok (y.settings f))

/-- CONFIGURE FEEDER. -/
def execConfigureFeeder (part : Part) (s : State) : Result :=
  .next (serveRequest part .configureFeeder bodyConfigureFeeder s)

/-! ### READ SHEET (R91) -/

/-- READ SHEET: the tally image of the feeder. -/
def bodyReadSheet : Body := fun raw _ s => (s, .complete .ok (s.tallyImage (feederOf (param raw 0))))

/-- READ SHEET. -/
def execReadSheet (s : State) : Result := .next (serveDirect .readSheet bodyReadSheet s)

/-! ### The persistence timer (R93) -/

/-- The mark set and the timer stopped (R93). -/
def Feeder.markPending (x : Feeder) : Feeder := { x with timer := none, selectionPending := true }

/-- The timer's expiry: WATCHING claims a selection, RESTING tests the spread first (R93). -/
def State.persistenceExpired (f : FeederNo) (s : State) : State :=
  let x := s.feeder f
  match x.state with
  | .watching => (s.newMoment.modFeeder f Feeder.markPending).claim (.selection f)
  | .resting =>
    if x.above then (s.newMoment.modFeeder f Feeder.markPending).claim (.selection f) else s.modFeeder f Feeder.calm
  | .off | .calm | .acting => s

/-- PERSISTENCE TIMER EXPIRY. -/
def execPersistenceTimerExpiry (f : FeederNo) (s : State) : Result :=
  .next (if reachedBy (s.feeder f).timer s.now then s.persistenceExpired f else s)

/-! ### Selection (R94, R99 to R101) -/

/-- A record is a candidate of a feeder's selection scan (R99). -/
def Record.candidate (r : Record) (f : FeederNo) (now : Nat) : Bool :=
  r.feeder == f && r.state == .active && r.kind == .single && !r.stale && r.phase.isSome && r.hold.isNone
    && r.fault.isNone && r.move.isNone && r.target.isNone && passedBy r.coolDown now
    && decide (r.dailyUsed < r.dailyBudget)

/-- A choice of the scan: the record, whether it is an importer, the phase it moves to and its score (R100, R101). -/
structure Choice where
  index : RecIdx
  importer : Bool
  phase : Phase
  score : Nat
deriving DecidableEq, Repr

/-- The way a candidate qualifies, with its score (R100, R101). -/
def Record.qualify (r : Record) (i : RecIdx) (x : Feeder) : Option Choice :=
  let cur := r.current.a
  let score := (2 * cur.natAbs - x.spread).natAbs
  if x.spread ≤ (cur.natAbs : Int) then none
  else if 0 < cur ∧ r.phase = some x.heaviest ∧ r.allowed.get x.lightest = true then
    some ⟨i, true, x.lightest, score⟩
  else if cur < 0 ∧ r.phase = some x.lightest ∧ r.allowed.get x.heaviest = true then
    some ⟨i, false, x.heaviest, score⟩
  else none

/-- One choice is taken before an earlier one: a lower score, or the same and an importer before an exporter (R101). -/
def Choice.beats (x y : Choice) : Bool :=
  decide (x.score < y.score) || (x.score == y.score && x.importer && !y.importer)

/-- The better of the choice so far and a further one of higher index. -/
def Choice.better (best : Option Choice) (x : Choice) : Option Choice :=
  match best with
  | none => some x
  | some y => if x.beats y then some x else some y

/-- The scan over all records, ascending (R101); their cool-downs are tested at the count the operation ends at (log 43). -/
def State.choose (s : State) (f : FeederNo) : Option Choice :=
  (s.indexed.filterMap (fun p =>
    if p.1.candidate f s.now then p.1.qualify p.2 (s.feeder f) else none)).foldl Choice.better none

/-- RESTING with the timer started (R94). -/
def Feeder.rest (x : Feeder) (now : Nat) : Feeder :=
  { x with state := .resting, timer := some (now + tenths x.persistence) }

/-- What the scan hands the balancer, unless a field reset was taken since it was served (R98). -/
def State.handBalancer (v : Service) (f : FeederNo) (g : Feeder → Feeder) (s : State) : State :=
  if v.overtaken then s else s.modFeeder f g

/-- A balancer selection scan that acts (R94). -/
def State.select (v : Service) (f : FeederNo) (s : State) : State :=
  let x := s.feeder f
  if !x.above then s.handBalancer v f Feeder.calm
  else
    match s.choose f, s.freeSlot with
    | some c, some k =>
      let target : Target := ⟨c.phase, x.priority, .balancer⟩
      ((s.setTarget c.index target).enqueue c.index k target).handBalancer v f
        (fun y => { y with state := .acting, timer := none, lastHandle := some (s.handleAt c.index) })
    | some _, none => s.handBalancer v f (·.rest s.now)
    | none, _ => (s.handBalancer v f (·.rest s.now)).raise .noCandidate

/-- BALANCER SELECTION: without the pending mark it has no effect (R93). -/
def execBalancerSelection (part : Part) (f : FeederNo) (s : State) : Result :=
  .next (serveClaim part (· == .selection f) (fun v t => if v.passed then t.operate (State.select v f) else t) s)

end Sys2Proof.Machine
end

