-- ==== Sys2Proof/Machine/Batches.lean ====
section
/-! DEFINITION. The Batch Engine: STAGE ENTRY, START BATCH, CANCEL BATCH, READ BATCH, the settle's expiry and the wave
examination (spec/05_batches.md, R103 to R118). -/
namespace Sys2Proof.Machine
open Sys2Proof

/-- The batch is RUNNING, SETTLING or CANCELLING (R105, R106). -/
def BatchState.busy (b : BatchState) : Bool := b == .running || b == .settling || b == .cancelling

/-! ### STAGE ENTRY (R105) -/

/-- The list an entry is added to: the present one in STAGING, an empty one otherwise (R105). -/
def Batch.opened (b : Batch) : Batch := if b.state = .staging then b else b.emptied .staging

/-- STAGE ENTRY. The batch state tested is the one read when the request was served (R104). -/
def bodyStageEntry (v : Service) : Body := fun raw _ s =>
  let h := reqHandle raw
  let b := s.batch
  if v.batch.busy then refuse raw .batchBusy s
  else if !s.names h then refuse raw .staleHandle s
  else
    match phaseOf (param raw 3).toNat with
    | none => refuse raw .phaseNotAllowed s
    | some p =>
      if !(s.record h.index).allowed.get p then refuse raw .phaseNotAllowed s
      else if b.state = .staging ∧ b.entries.any (fun e => e.handle.index == h.index) then
        refuse raw .duplicateEntry s
      else if b.state = .staging ∧ 64 ≤ b.entries.length then refuse raw .listFull s
      else
        let n := b.opened.entries.length
        let t := s.modBatch (fun b => { b.opened with entries := b.opened.entries ++ [⟨h, p, .pending⟩] })
        okWith raw [byteOf n, byteOf (n + 1)] t

/-- STAGE ENTRY. -/
def execStageEntry (part : Part) (s : State) : Result := .next (serveRequestWith part .stageEntry bodyStageEntry s)

/-! ### START BATCH (R106) -/

/-- The parameters of a START BATCH stored (R106). -/
def Batch.withParameters (b : Batch) (raw : RawRequest) : Batch :=
  { b with
    waveSize := some (param raw 0).toNat
    settle := some (min (paramNat raw 1 2) 600)
    stopOnFailure := onOff (param raw 3)
    priority := min (param raw 4).toNat 6
    startParked := true }

/-- START BATCH: wave 1 begins and the request parks. The batch state tested is the one read when the request was
served (R104). -/
def bodyStartBatch (v : Service) : Body := fun raw _ s =>
  if v.batch.busy then refuse raw .batchBusy s
  else if v.batch = .staging then
    ((s.modBatch (fun b => b.withParameters raw)).beginWave 1 0, .park .batchEnd 0 0)
  else refuse raw .batchEmpty s

/-- START BATCH. -/
def execStartBatch (part : Part) (s : State) : Result := .next (serveRequestWith part .startBatch bodyStartBatch s)

/-! ### CANCEL BATCH (R114, R115) -/

/-- The slot of the QUEUED move of present origin BATCH that an entry's record has (R114). -/
def State.batchQueued (s : State) (e : Entry) : Option SlotNo :=
  match s.queuedMove e.handle.index with
  | some (k, m) => if m.origin = .batch then some k else none
  | none => none

/-- An entry whose move the cancellation withdraws: IN_MOVE with a QUEUED move of origin BATCH (R114). -/
def State.withdrawable (s : State) (e : Entry) : Bool := e.result == .inMove && (s.batchQueued e).isSome

/-- The moves in a list of slots end ABORTED with their targets removed (R75, R114). -/
def State.abortMoves (slots : List SlotNo) (stamp : Word32) (s : State) : State :=
  slots.foldl (fun t k => t.endMove k (.aborted false .aborted) stamp) s

/-- The list after a cancellation, and the batch CANCELLING: PENDING entries FLUSHED, withdrawn entries ABORTED, the
settle timer stopped, no mark and no stall (R114). -/
def Batch.cancelled (b : Batch) (test : Entry → Bool) : Batch :=
  let entries := b.entries.map (fun e => if test e then { e with result := .aborted } else e)
  { ({ b with entries := entries } : Batch).flushPending with
    state := .cancelling, settleDue := none, examinationPending := false, stalled := false }

/-- CANCEL BATCH of a RUNNING or SETTLING batch (R114). Entries are ABORTED before their moves' ends are told. -/
def State.cancelRunning (stamp : Word32) (s : State) : State :=
  let slots := (s.batch.entries.filter s.withdrawable).filterMap s.batchQueued
  let t := (s.modBatch (fun b => b.cancelled s.withdrawable)).abortMoves slots stamp
  if t.batch.anyInMove then t else t.batchEnd .cancelled

/-- CANCEL BATCH, by the batch state read when it was served (R104). When a field reset has ended the batch since,
the moves of the entries it found IN_MOVE still end at the Record Store, and the list keeps what the field reset
gave it (R25, R118). -/
def bodyCancelBatch (v : Service) : Body := fun _ stamp s =>
  let t :=
    match v.batch with
    | .empty | .cancelling | .ended => s
    | .staging => s.modBatch (fun b => b.emptied .empty)
    | .running | .settling =>
      if v.overtaken then
        s.abortMoves ((s.batch.entries.filter (fun e => e.result == .aborted)).filterMap s.batchQueued) stamp
      else s.cancelRunning stamp
  (t, .complete .ok [])

/-- CANCEL BATCH. -/
def execCancelBatch (part : Part) (s : State) : Result := .next (serveRequestWith part .cancelBatch bodyCancelBatch s)

/-! ### READ BATCH (R116) -/

/-- READ BATCH. -/
def bodyReadBatch : Body := fun raw _ s => (s, .complete .ok (s.batchImage (param raw 0).toNat))

/-- READ BATCH. -/
def execReadBatch (s : State) : Result := .next (serveDirect .readBatch bodyReadBatch s)

/-! ### The settle's expiry (R112) -/

/-- SETTLE EXPIRY: the next wave begins. -/
def execSettleExpiry (s : State) : Result :=
  .next (if s.batch.state = .settling ∧ reachedBy s.batch.settleDue s.now = true then s.newMoment.nextWave else s)

/-! ### Wave examination (R107 to R109) -/

/-- The nine tests of an entry, in order: the result of the first that fails, none when it passes all (R108). -/
def State.examine (s : State) (e : Entry) : Option EntryResult :=
  let r := s.record e.handle.index
  if !s.names e.handle then some (.refused .staleHandle)
  else if r.state ≠ .active then some (.refused .notActive)
  else if r.kind = .three then some (.refused .notMovable)
  else if r.hold.isSome then some (.refused .held)
  else if r.fault.isSome then some (.refused .faulted)
  else if r.move.isSome || r.target.isSome then some (.refused .busy)
  else if !r.allowed.get e.toPhase then some (.refused .phaseNotAllowed)
  else if r.dailyBudget ≤ r.dailyUsed then some (.refused .budgetSpent)
  else if r.phase = some e.toPhase then some .already
  else none

/-- What an examination found: the results it set, by entry index, and the entry it stalled at. -/
structure Examined where
  results : List (Nat × EntryResult)
  stalledAt : Option Nat
deriving DecidableEq, Repr

/-- The examination of entries in list order, placing each that passes until the Move Table is full (R108, R109). A record
that still stands in the waiting list is enqueued at once all the same (log 34). -/
def examineLoop (priority : Nat) : List (Nat × Entry) → Examined → State → State × Examined
  | [], x, s => (s, x)
  | (k, e) :: l, x, s =>
    match s.examine e with
    | some r => examineLoop priority l { x with results := x.results ++ [(k, r)] } s
    | none =>
      match s.freeSlot with
      | none => (s, { x with stalledAt := some k })
      | some slot =>
        let target : Target := ⟨e.toPhase, priority, .batch⟩
        examineLoop priority l { x with results := x.results ++ [(k, .inMove)] }
          ((s.setTarget e.handle.index target).enqueue e.handle.index slot target)

/-- The entries an examination takes: from an entry to the wave last entry, with their indexes (R107). -/
def Batch.toExamine (b : Batch) (start : Nat) : List (Nat × Entry) :=
  (b.entries.zipIdx.filter (fun p => decide (start ≤ p.2) && b.waveLast.any (fun y => decide (p.2 ≤ y)))).map
    (fun p => (p.2, p.1))

/-- The batch told of an examination's end (R107, R109). -/
def Batch.examined (b : Batch) (x : Examined) : Batch :=
  { x.results.foldl (fun b p => b.setResult p.1 p.2) b with next := x.stalledAt, stalled := x.stalledAt.isSome }

/-- A wave examination that acts: its results reach the batch, and the end of the wave is tested, unless a field reset
was taken since it was served (R111, R118). -/
def State.examineWave (v : Service) (s : State) : State :=
  let found := examineLoop s.batch.priority (s.batch.toExamine (v.next.getD 0)) ⟨[], none⟩ s
  if v.overtaken then found.1 else (found.1.modBatch (fun b => b.examined found.2)).testWaveEnd

/-- WAVE EXAMINATION: without the mark, or out of RUNNING, it has no effect (R107). -/
def execWaveExamination (part : Part) (s : State) : Result :=
  .next (serveClaim part (· == .wave) (fun v t => if v.passed then t.operate (State.examineWave v) else t) s)

end Sys2Proof.Machine
end

