-- ==== Sys2Proof/Machine/Clock.lean ====
section
/-! DEFINITION. The clock and the expiries on the elapsed count: the advance of the two counts, the day rollover,
deadlines, cool-downs, hunts, confirm delays, the survey and the throttle (spec/08_survey_and_time.md, R154, R155, R160;
R16, R18, R61, R69, R185). An expiry may be acted on after its count (log 6). -/
namespace Sys2Proof.Machine
open Sys2Proof

/-! ### The counts (R154, R155) -/

/-- A day in units of 0.1 s. -/
def dayTenths : Nat := 864000

/-- The record has a QUEUED move. -/
def State.hasQueued (s : State) (r : Record) : Bool :=
  match r.move with
  | some k => (s.slot k).any (fun m => !m.inFlight)
  | none => false

/-- The expiries of a record on a count that are events for its line's pick (R61, R136). -/
def State.expiriesAt (s : State) (n : Nat) (p : Record × RecIdx) : List Reached :=
  (if p.1.coolDown == some n && s.hasQueued p.1 then [.coolDown p.2] else [])
    ++ (if p.1.huntDue == some n && p.1.state == .provisional then [.huntDue p.2] else [])

/-- Both counts advance by 1, and the expiries reached wait to be told (R155, log 6). -/
def State.advance (s : State) : State :=
  let n := s.time.elapsed + 1
  { s with
    time :=
      { count := s.time.count + 1, elapsed := n, reached := s.time.reached ++ s.indexed.flatMap (s.expiriesAt n) } }

/-- The advance landed on a day boundary (R154). -/
def State.atDayBoundary (s : State) : Bool := s.time.count.toNat % dayTenths == 0

/-- TIME COUNT ADVANCE. -/
def execTimeCountAdvance (s : State) : Result :=
  let t := s.newMoment.advance
  .next (if t.atDayBoundary then t.claim .dayRollover else t)

/-! ### The day rollover (R18) -/

/-- Every daily used becomes 0; an event for both lines' picks (R18, R61). -/
def State.rollOver (s : State) : State :=
  ({ s with store := { s.store with table := mapTable (fun r => { r with dailyUsed := 0 }) s.store.table } } : State)
    |>.pickEventBoth

/-- DAY ROLLOVER. -/
def execDayRollover (part : Part) (s : State) : Result :=
  .next (serveClaim part (· == .dayRollover) (fun _ t => t.operate State.rollOver) s)

/-! ### Report deadlines (R16) -/

/-- A deadline expiry of a record with a due value waits at the store or is in progress there. -/
def State.deadlineClaimed (s : State) (c : Claim) : Bool :=
  s.store.claims.any (fun w => w.claim == c) || s.store.inProgress.any (fun v => v.serves (· == c))

/-- REPORT DEADLINE REACHED: the expiry claims its operation, once for each due value. -/
def execReportDeadlineReached (i : RecIdx) (s : State) : Result :=
  .next (match (s.record i).deadlineDue with
    | some d =>
      let c : Claim := .deadline (s.handleAt i) d
      if d ≤ s.now ∧ s.deadlineClaimed c = false then s.newMoment.claim c else s
    | none => s)

/-- The expiry still takes effect (R16). -/
def State.deadlineStands (s : State) (h : Handle) (due : Nat) : Bool :=
  let r := s.record h.index
  r.generation == h.generation && r.inService && !r.stale && r.deadlineDue == some due

/-- The record becomes stale (R16). -/
def State.becomeStale (i : RecIdx) (s : State) : State :=
  (s.modRecord i (fun r => { r with stale := true, deadlineDue := none })).raise .stale

/-- DEADLINE EXPIRY. -/
def execDeadlineExpiry (part : Part) (i : RecIdx) (s : State) : Result :=
  .next (serveClaim part
    (fun c => match c with | .deadline h _ => h.index == i | _ => false)
    (fun v t =>
      match v.work with
      | .claim (.deadline h d) => if t.deadlineStands h d then t.operate (State.becomeStale h.index) else t
      | _ => t) s)

/-! ### Cool-downs and hunts (R61, R136) -/

/-- An expiry told: it leaves the list. -/
def State.told (x : Reached) (s : State) : State :=
  { s with time := { s.time with reached := s.time.reached.erase x } }

/-- COOL DOWN PASSED: an event for the line of a record with a QUEUED move. -/
def execCoolDownPassed (i : RecIdx) (s : State) : Result :=
  .next (if s.time.reached.contains (.coolDown i) then
    (if (s.queuedMove i).isSome then (s.told (.coolDown i)).pickEvent (s.lineOfRecord i) else s.told (.coolDown i))
    else s)

/-- HUNT DUE REACHED: an event for the line of a PROVISIONAL record. -/
def execHuntDueReached (i : RecIdx) (s : State) : Result :=
  .next (if s.time.reached.contains (.huntDue i) then
    (if (s.record i).state = .provisional then (s.told (.huntDue i)).pickEvent (s.lineOfRecord i)
      else s.told (.huntDue i))
    else s)

/-! ### Confirm delays (R69) -/

/-- A SWITCHING move whose confirm delay has run out: CHECKING, with a CHECK due at that count (R69). -/
def Move.confirm (m : Move) : Move := { m with state := .checking, checkDue := m.confirmDue, confirmDue := none }

/-- CONFIRM DELAY EXPIRY: a due CHECK is an event for its line's pick (R136). -/
def execConfirmDelayExpiry (k : SlotNo) (s : State) : Result :=
  .next (match s.slot k with
    | some m =>
      if m.state = .switching ∧ m.closed = false ∧ reachedBy m.confirmDue s.now = true then
        (s.setSlot k (some m.confirm)).pickEvent (s.lineOfRecord m.index)
      else s
    | none => s)

/-! ### The survey (R160) -/

/-- A line handed the start of a round (R160). -/
def State.startRound (l : LineNo) (s : State) : State :=
  match (s.line l).state with
  | .running =>
    match (s.line l).round with
    | none => (s.modLine l (fun ln => { ln with round := some 0 })).pickEvent l
    | some _ => s.raise .surveyOverrun
  | .stopped | .suspended => s

/-- SURVEY EXPIRY: the timer is reloaded from the due value just reached, then each line is handed a round. -/
def execSurveyExpiry (s : State) : Result :=
  .next (match s.survey.timer with
    | some d =>
      if s.survey.enable = true ∧ d ≤ s.now then
        (({ s with survey := { s.survey with timer := some (d + tenths s.survey.period) } } : State).startRound 0
          |>.startRound 1)
      else s
    | none => s)

/-! ### The routine throttle (R185) -/

/-- THROTTLE EXPIRY. -/
def execThrottleExpiry (s : State) : Result :=
  .next (if reachedBy s.attention.timer s.now then s.modAttention (·.expire s.now) else s)

end Sys2Proof.Machine
end

