-- ==== Sys2Proof/Machine/Lines.lean ====
section
/-! DEFINITION. The Line Controllers' commands: the pick, the admission and pick lookup operations, the end of a sending,
and what the receiver and the turnaround timer bring (spec/06_field_lines.md, R125 to R140; R61 to R64, R68, R69;
spec/07_contact_and_rate_hunting.md, R143 to R146). -/
namespace Sys2Proof.Machine
open Sys2Proof

/-! ### The pick (R136 to R138) -/

/-- A due CHECK: the count it fell due at, the slot, the move and the line's binding of it. -/
structure DueCheck where
  due : Nat
  slot : SlotNo
  move : Move
  binding : MoveBinding
deriving DecidableEq, Repr

/-- The CHECK of a move, where it is due on a line (R137). -/
def State.dueCheck (s : State) (l : LineNo) (p : SlotNo × Move) : Option DueCheck :=
  match p.2.checkDue, (s.line l).bindings.find? (fun b => b.slot == p.1) with
  | some d, some b => if p.2.state = .checking ∧ p.2.closed = false then some ⟨d, p.1, p.2, b⟩ else none
  | _, _ => none

/-- The earlier of two due CHECKs; the one of the lower slot where they fell due together (R137). -/
def earlierCheck (best : Option DueCheck) (x : DueCheck) : Option DueCheck :=
  match best with
  | none => some x
  | some y => if x.due < y.due then some x else some y

/-- The CHECK a pick takes (R137). -/
def State.nextCheck (s : State) (l : LineNo) : Option DueCheck :=
  (s.moves.filterMap (s.dueCheck l)).foldl earlierCheck none

/-- The transaction of a CHECK, from the line's binding of the move (R137). -/
def State.checkTxn (s : State) (x : DueCheck) : Txn :=
  { kind := .check, index := x.move.index, generation := x.move.generation, address := x.binding.address,
    bitLength := s.bitLength x.binding.rateClass, slot := some x.slot, sequence := x.move.sequence.getD 0 }

/-- A feeder has room below its in-flight limit (R61, R62). -/
def State.hasFlightRoom (s : State) (f : FeederNo) : Bool := decide (s.sched.inFlight[f] < (s.feeder f).inFlightLimit)

/-- The scheduler's answer from its own state: a QUEUED move on the line whose feeder has room (R61). -/
def State.canAdmit (s : State) (l : LineNo) : Bool :=
  s.moveQueue.any (fun p => s.lineOfRecord p.2.index == l && s.hasFlightRoom (s.record p.2.index).feeder)

/-- A line PICKING, waiting for its operation. -/
def Line.picking (ln : Line) : Line := { ln with activity := .picking }

/-- The pick: a due CHECK is sent at once, otherwise an admission or a pick lookup is claimed (R137, R138). -/
def State.pick (l : LineNo) (s : State) : State :=
  match s.nextCheck l with
  | some x => (s.modSlot x.slot (fun m => { m with checkDue := none })).begin l (s.checkTxn x) []
  | none =>
    let run := (s.line l).run
    (s.modLine l Line.picking).claim (if s.canAdmit l then .admission l run else .pickLookup l run)

/-- A RUNNING line that is IDLE with room in its hold has an event to pick on (R136, log 7). -/
def Line.picks (ln : Line) : Bool :=
  ln.state == .running && ln.activity == .idle && decide (ln.receiveHold.length < 2) && ln.pickWanted

/-- LINE PICK. -/
def execLinePick (l : LineNo) (s : State) : Result :=
  .next (if (s.line l).picks then (s.newMoment.modLine l (fun ln => { ln with pickWanted := false })).pick l else s)

/-! ### Admission (R61 to R64, R138) -/

/-- What the tests of R62 say of a QUEUED move on the line with room. -/
inductive Admit where
  | pass
  | budget
  | takes
deriving DecidableEq, Repr

/-- The tests of R62, in order; the cool-down is tested at the count the operation ends at (log 43). -/
def State.admitTest (s : State) (l : LineNo) (m : Move) : Admit :=
  let r := s.record m.index
  if s.lineOfRecord m.index ≠ l ∨ s.hasFlightRoom r.feeder = false then .pass
  else if m.origin ≠ .restore ∧ passedBy r.coolDown s.now = false then .pass
  else if r.phase = none then .pass
  else if m.origin ≠ .restore ∧ r.dailyBudget ≤ r.dailyUsed then .budget
  else .takes

/-- The scan of the move queue (R62, R63): moves with a spent budget end on the way, the first that meets every test is
admitted. -/
def admitScan (l : LineNo) (stamp : Word32) : List (SlotNo × Move) → State → State × Option (SlotNo × Move)
  | [], s => (s, none)
  | (k, m) :: q, s =>
    match s.admitTest l m with
    | .pass => admitScan l stamp q s
    | .budget => admitScan l stamp q (s.endWith k .budgetSpent stamp)
    | .takes => (s, some (k, m))

/-- The move as admitted (R63). -/
def State.admitted (s : State) (l : LineNo) (m : Move) : Move :=
  { m with
    fromPhase := (s.record m.index).phase
    sequence := some (nextSequence s.sched.lineSequence[l])
    resolve := false
    attemptsLeft := (s.line l).retryLimit + 1
    state := .offered }

/-- The changes of an admission: daily used, the slot, the line's sequence and the feeder's count (R63). -/
def State.admitMove (l : LineNo) (k : SlotNo) (m : Move) (s : State) : State :=
  let f := (s.record m.index).feeder
  let t := (s.setSlot k (some (s.admitted l m))).modRecord m.index (fun r => { r with dailyUsed := min 15 (r.dailyUsed + 1) })
  { t with
    sched :=
      { t.sched with
        lineSequence := t.sched.lineSequence.set l (nextSequence s.sched.lineSequence[l])
        inFlight := t.sched.inFlight.set f (t.sched.inFlight[f] + 1) } }

/-- The line still runs in the run an operation was claimed for (R138). -/
def State.inRun (s : State) (l : LineNo) (run : Word32) : Bool := (s.line l).state == .running && (s.line l).run == run

/-- The payload of a MOVE frame (R64, 11.5). -/
def Move.payload (m : Move) : List Byte :=
  [byteOf (phaseCode m.fromPhase), byteOf m.toPhase.code, boolByte (m.origin == .restore)]

/-- The rate class a record's frames go out at; entry 7 where it holds none, which no record in service does (log
28). -/
def Record.sendClass (r : Record) : RateNo := r.rateClass.getD 7

/-- The transaction that offers a move (R64, R131). -/
def State.moveTxn (s : State) (k : SlotNo) (m : Move) : Txn :=
  let r := s.record m.index
  { kind := .move, index := m.index, generation := m.generation, address := r.unitAddress,
    bitLength := s.bitLength r.sendClass, slot := some k, sequence := m.sequence.getD 0 }

/-- The line takes an admitted move: it keeps the binding and sends the MOVE (R138). -/
def State.offer (l : LineNo) (k : SlotNo) (m : Move) (s : State) : State :=
  let r := s.record m.index
  (s.modLine l (fun ln => { ln with bindings := ln.bindings ++ [⟨k, r.unitAddress, r.sendClass⟩] })).begin l
    (s.moveTxn k m) m.payload

/-! ### The pick lookup (R138, R140) -/

/-- The lowest PROVISIONAL record on the line whose hunt due has been reached (R138), at the count the operation ends at
(log 43). -/
def State.nextHunt (s : State) (l : LineNo) : Option RecIdx :=
  s.lowest (fun r _ => r.state == .provisional && (s.feeder r.feeder).line == l && reachedBy r.huntDue s.now)

/-- The lowest record at or above a position that a round of the line polls (R140). -/
def State.nextPoll (s : State) (l : LineNo) (position : Nat) : Option RecIdx :=
  s.lowest (fun r i => decide (position ≤ i.val) && r.inService && (s.feeder r.feeder).line == l)

/-- A transaction with no slot (R131): a SUMMON goes out at entry 7's bit length, a POLL at the record's class. -/
def State.plainTxn (s : State) (kind : TxnKind) (i : RecIdx) : Txn :=
  let r := s.record i
  { kind := kind, index := i, generation := r.generation, address := r.unitAddress,
    bitLength := s.bitLength (if kind = .summon then 7 else r.sendClass), slot := none, sequence := 0 }

/-- The line's operation returned with nothing: it is IDLE, and picks once more when an event came meanwhile (R136). -/
def Line.foundNothing (ln : Line) : Line :=
  if ln.pickAgain then { ln with activity := .idle, pickAgain := false, pickWanted := true } else { ln with activity := .idle }

/-- The poll of a pick lookup (R138, R140, R162). Where a survey expiry meets the lookup in progress, the round is read as
it stands at the operation's end (log 46). -/
def State.lookupPoll (l : LineNo) (s : State) : State :=
  match (s.line l).round with
  | none => s.modLine l Line.foundNothing
  | some p =>
    match s.nextPoll l p with
    | some i => (s.modLine l (fun ln => { ln with round := some (i.val + 1) })).begin l (s.plainTxn .poll i) []
    | none => s.modLine l (fun ln => Line.foundNothing { ln with round := none })

/-- The pick lookup (R138): first a hunt, then a poll. When the line has been halted meanwhile a hunt found ends
uncounted and a poll is dropped. -/
def State.lookup (l : LineNo) (run : Word32) (s : State) : State :=
  match s.nextHunt l with
  | some i =>
    let t := s.modRecord i (fun r => { r with huntDue := none })
    if s.inRun l run then t.begin l (s.plainTxn .summon i) [] else t.claim (.uncountedHunt (s.handleAt i))
  | none => if s.inRun l run then s.lookupPoll l else s

/-- PICK LOOKUP: under a halted line, or a later run, it finds nothing and the line takes no notice (R138). -/
def execPickLookup (part : Part) (l : LineNo) (s : State) : Result :=
  .next (serveClaim part
    (fun c => match c with | .pickLookup x _ => x == l | _ => false)
    (fun v t =>
      match v.work with
      | .claim (.pickLookup _ run) => if v.passed then t.operate (State.lookup l run) else t
      | _ => t) s)

/-- The admission operation (R138): a move admitted is sent, or closed at once when the line has been halted
meanwhile; with none, a pick lookup follows in the same operation. -/
def State.admission (l : LineNo) (run : Word32) (stamp : Word32) (s : State) : State :=
  match admitScan l stamp s.moveQueue s with
  | (t, some (k, m)) =>
    let a := t.admitted l m
    let u := t.admitMove l k m
    if u.inRun l run then u.offer l k a else u.closeSlot k a
  | (t, none) => t.lookup l run

/-- ADMISSION. -/
def execAdmission (part : Part) (l : LineNo) (s : State) : Result :=
  .next (serveClaim part
    (fun c => match c with | .admission x _ => x == l | _ => false)
    (fun v t =>
      match v.work with
      | .claim (.admission _ run) => if v.passed then t.operate (State.admission l run v.stamp) else t
      | _ => t) s)

/-! ### Sending and listening (R131, R133, R144, R145) -/

/-- Sample clocks in 10 ms. -/
def clocksPer10ms : Nat := 20000

/-- The end of a sending: one attempt is taken, the answer window opens with the turnaround timer (R131). -/
def Line.listen (ln : Line) (t : Txn) : Line :=
  { ln with
    activity := .listening, attemptsLeft := ln.attemptsLeft - 1, window := ln.turnaround * clocksPer10ms,
    timer := .running (ln.turnaround * clocksPer10ms), rx := t.receiver }

/-- The attempt taken from the slot as well (R64, R69). -/
def State.takeAttempt (t : Txn) (s : State) : State :=
  match s.boundSlot t with
  | some k => s.modSlot k (fun m => { m with attemptsLeft := m.attemptsLeft - 1 })
  | none => s

/-- FRAME SENT. -/
def execFrameSent (l : LineNo) (s : State) : Result :=
  .next (match (s.line l).activity, (s.line l).out with
    | .sending, some t => (s.modLine l (fun ln => ln.listen t)).takeAttempt t
    | _, _ => s)

/-- FRAME RECEIVED: a character that closes the frame being assembled. -/
def execFrameReceived (l : LineNo) (wait : Nat) (wave : Wave) (s : State) : Result :=
  .next (if waveOk wave && (s.line l).closes wait wave then s.character l wait wave else s)

/-- CHARACTER RECEIVED: a character that closes no frame. -/
def execCharacterReceived (l : LineNo) (wait : Nat) (wave : Wave) (s : State) : Result :=
  .next (if waveOk wave && !(s.line l).closes wait wave then s.character l wait wave else s)

/-- FRAME GAP TIMEOUT: more than 4 character times after the last character; a frame being assembled, or characters
with no start mark, are a discarded frame (R129, R131). -/
def execFrameGapTimeout (l : LineNo) (s : State) : Result :=
  .next (match (s.line l).activity, (s.line l).out with
    | .listening, some t => if (s.line l).rx.busy then s.discard l t else s
    | _, _ => s)

/-- The turnaround timer runs. -/
def Timer.runs : Timer → Bool
  | .running _ => true
  | .stopped | .held _ => false

/-- TURNAROUND TIMEOUT: the attempt ends with no valid answer (R131, R133). -/
def execTurnaroundTimeout (l : LineNo) (s : State) : Result :=
  .next (if (s.line l).activity = .listening ∧ (s.line l).timer.runs = true then s.attemptFailed l .silent else s)

/-- A line listens in measuring mode, with more time left on its timer than the wait for the falling edge (R144): an edge at
the clock the timer runs out at comes too late (log 45). -/
def Line.measures (ln : Line) (wait : Nat) : Bool :=
  ln.activity == .listening && ln.rx.mode == .measuring
    && (match ln.timer with | .running n => decide (wait < n) | _ => false)

/-- The timer after a false start: the time it had left when it was held (R144). -/
def Timer.after (wait : Nat) : Timer → Timer
  | .running n => .running (n - wait)
  | t => t

/-- HUNT START BIT MEASURED: a false start is ignored, a longer period is classified and the frame is read at its
class's bit length (R144 to R146). A period past entry 7's maximum never comes to its rising edge. -/
def execHuntStartBitMeasured (l : LineNo) (wait period : Nat) (s : State) : Result :=
  .next (if (s.line l).measures wait && decide (0 < period) && decide (period ≤ s.maxStart 7) then
    if period < s.falseStart then s.modLine l (fun ln => { ln with timer := ln.timer.after wait })
    else
      match s.classOf period with
      | some c =>
        s.modLine l (fun ln =>
          { ln with
            timer := (ln.timer.after wait).hold
            rx := { ln.rx with mode := .lead, bitLength := s.bitLength c, rateClass := some c } })
      | none => s
    else s)

/-- START BIT UNCLASSIFIED: the pair stays low past entry 7's maximum; the attempt ends at once (R145). -/
def execStartBitUnclassified (l : LineNo) (wait : Nat) (s : State) : Result :=
  .next (if (s.line l).measures wait then s.attemptFailed l .endOfTable else s)

end Sys2Proof.Machine
end

