-- ==== Sys2Proof/Machine/Settings.lean ====
section
/-! DEFINITION. The requests served directly by the Line Controllers, the Rate Table, the Survey Unit, the Time Base and
the Attention Unit (R120 to R124, R142, R156, R159, R183). -/
namespace Sys2Proof.Machine
open Sys2Proof

/-! ### Lines (R120 to R124) -/

/-- The settings of a line from a request, brought into range (R123). -/
def Line.configure (ln : Line) (raw : RawRequest) : Line :=
  { ln with
    retryLimit := min (param raw 1).toNat 3
    turnaround := inRange 2 255 (param raw 2).toNat
    confirmDelay := inRange 2 255 (param raw 3).toNat
    silenceLimit := inRange 4 64 (param raw 4).toNat
    huntInterval := inRange 10 3600 (paramNat raw 5 2) }

/-- CONFIGURE LINE (R123). -/
def bodyConfigureLine : Body := fun raw _ s =>
  let l := lineNoOf (param raw 0)
  let t := s.modLine l (fun ln => ln.configure raw)
  (t, .complete .ok (byteOf l.val :: (t.line l).settings))

/-- CONFIGURE LINE. -/
def execConfigureLine (s : State) : Result := .next (serveDirect .configureLine bodyConfigureLine s)

/-- The result area of LINE START and LINE STOP: the line state before and after (11.3). -/
def stateChange (before after : LineState) : List Byte := [byteOf before.code, byteOf after.code]

/-- A line set running: the run number advanced, the silence count 0, IDLE (R120). -/
def Line.start (ln : Line) : Line := { ln with state := .running, run := ln.run + 1, silence := 0, activity := .idle }

/-- A STOPPED or SUSPENDED line starts and picks; a RUNNING line is left (R120). -/
def State.startLine (l : LineNo) (s : State) : State :=
  if (s.line l).state = .running then s else (s.modLine l Line.start).pickEvent l

/-- LINE START (R120). -/
def bodyLineStart : Body := fun raw _ s =>
  let l := lineNoOf (param raw 0)
  let t := s.startLine l
  (t, .complete .ok (stateChange (s.line l).state (t.line l).state))

/-- LINE START. -/
def execLineStart (s : State) : Result := .next (serveDirect .lineStart bodyLineStart s)

/-- LINE STOP (R121). -/
def bodyLineStop : Body := fun raw _ s =>
  let l := lineNoOf (param raw 0)
  let t := s.stopLine l
  (t, .complete .ok (stateChange (s.line l).state (t.line l).state))

/-- LINE STOP. -/
def execLineStop (s : State) : Result := .next (serveDirect .lineStop bodyLineStop s)

/-- READ LINE (R124). -/
def bodyReadLine : Body := fun raw _ s => (s, .complete .ok (s.lineImage (lineNoOf (param raw 0))))

/-- READ LINE. -/
def execReadLine (s : State) : Result := .next (serveDirect .readLine bodyReadLine s)

/-! ### CONFIGURE RATE (R142) -/

/-- The entry a byte names. -/
def rateNoOf (b : Byte) : RateNo := Fin.ofNat 8 b.toNat

/-- A write of an entry would break the order of R141 (R142, BAD_TABLE). -/
def State.badEntry (s : State) (c : RateNo) (longest bits : Nat) : Bool :=
  decide (bits < 8) || decide (longest < bits)
    || s.rate.toList.zipIdx.any (fun p =>
        (p.2 + 1 == c.val && decide (longest ≤ p.1.maxStart.toNat))
          || (p.2 == c.val + 1 && decide (p.1.maxStart.toNat ≤ longest)))

/-- The result area of CONFIGURE RATE: the entry as it stands (R142). -/
def State.rateResult (s : State) (c : RateNo) : List Byte :=
  byteOf c.val :: be16 (s.maxStart c) ++ be16 (s.bitLength c)

/-- Either line is RUNNING (R142). -/
def State.anyRunning (s : State) : Bool := (s.line 0).state == .running || (s.line 1).state == .running

/-- CONFIGURE RATE. -/
def bodyConfigureRate : Body := fun raw _ s =>
  let c := rateNoOf (param raw 0)
  let longest := paramNat raw 1 2
  let bits := paramNat raw 3 2
  if s.anyRunning then (s, .complete .lineRunning (s.rateResult c))
  else if s.badEntry c longest bits then (s, .complete .badTable (s.rateResult c))
  else
    let t := { s with rate := s.rate.set c ⟨BitVec.ofNat 16 longest, BitVec.ofNat 16 bits⟩ }
    (t, .complete .ok (t.rateResult c))

/-- CONFIGURE RATE. -/
def execConfigureRate (s : State) : Result := .next (serveDirect .configureRate bodyConfigureRate s)

/-! ### CONFIGURE SURVEY (R159) -/

/-- The Survey Unit after CONFIGURE SURVEY: the period stored, the timer by the table of R159. -/
def Survey.configure (v : Survey) (enable : Bool) (period now : Nat) : Survey :=
  { enable := enable
    period := period
    timer :=
      if !enable then none
      else if v.enable ∧ period = v.period then v.timer
      else some (now + tenths period) }

/-- CONFIGURE SURVEY. -/
def bodyConfigureSurvey : Body := fun raw _ s =>
  let v := s.survey.configure (onOff (param raw 0)) (inRange 5 3600 (paramNat raw 1 2)) s.now
  ({ s with survey := v },
    .complete .ok (boolByte v.enable :: be16 v.period ++ be16 (remainingTenths v.timer s.now)))

/-- CONFIGURE SURVEY. -/
def execConfigureSurvey (s : State) : Result := .next (serveDirect .configureSurvey bodyConfigureSurvey s)

/-! ### SET TIME (R156) -/

/-- SET TIME: the load changes the Time Count alone. -/
def bodySetTime : Body := fun raw _ s =>
  let n := BitVec.ofNat 32 (paramNat raw 0 4)
  ({ s with time := { s.time with count := n } }, .complete .ok (be32 s.time.count.toNat ++ be32 n.toNat))

/-- SET TIME. -/
def execSetTime (s : State) : Result := .next (serveDirect .setTime bodySetTime s)

/-! ### CONFIGURE ATTENTION (R183) -/

/-- The enabled set replaced and the throttle stored, then the attention state evaluated (R183, R184). -/
def Attention.configure (a : Attention) (enabled : Word16) (throttle now : Nat) : Attention :=
  ({ a with enabledSet := enabled, throttle := throttle } : Attention).evaluate now

/-- CONFIGURE ATTENTION: the completion shows the state after the evaluation (log 15). -/
def bodyConfigureAttention : Body := fun raw _ s =>
  let a := s.attention.configure (BitVec.ofNat 16 (paramNat raw 0 2)) (param raw 2).toNat s.now
  ({ s with attention := a },
    .complete .ok (be16 a.enabledSet.toNat
      ++ [byteOf a.throttle, boolByte a.raised, byteOf (remainingTenths a.timer s.now)]))

/-- CONFIGURE ATTENTION. -/
def execConfigureAttention (s : State) : Result := .next (serveDirect .configureAttention bodyConfigureAttention s)

end Sys2Proof.Machine
end

