-- ==== Sys2Proof/Machine/Taking.lean ====
section
/-! DEFINITION. The taking of a request (R172): the kinds that blocks serve directly, and the command. -/
namespace Sys2Proof.Machine
open Sys2Proof

/-- What a kind served directly does (R172, table "Where each request kind is served"). -/
def directBody : ReqKind → Option Body
  | .readSheet => some bodyReadSheet
  | .readBatch => some bodyReadBatch
  | .configureLine => some bodyConfigureLine
  | .lineStart => some bodyLineStart
  | .lineStop => some bodyLineStop
  | .readLine => some bodyReadLine
  | .configureRate => some bodyConfigureRate
  | .configureSurvey => some bodyConfigureSurvey
  | .setTime => some bodySetTime
  | .configureAttention => some bodyConfigureAttention
  | .create | .find | .read | .amend | .setPhase | .cancelMove | .hold | .release | .clearFault | .clearNotices
  | .contact | .retire | .configureFeeder | .stageEntry | .startBatch | .cancelBatch => none

/-- REQUEST TAKING (R172). -/
def execRequestTaking (s : State) : Result :=
  .next (match s.engine.queue with
    | raw :: rest => if s.engine.mayTake raw then s.takeRequest directBody raw rest else s
    | [] => s)

end Sys2Proof.Machine
end

