-- ==== Sys2Proof/Machine/Dispatch.lean ====
section
/-! DEFINITION. The dispatch: one arm for each command, each one call of its meaning. -/
namespace Sys2Proof.Machine
open Sys2Proof

/-- The effect of a command on everything but the queue. -/
def exec (i : Instr) (s : State) : Host.Outcome State Fault Refusal :=
  match i with
  | .fullReset => Sys2Proof.Machine.execFullReset s
  | .writeRequest part record extra => Sys2Proof.Machine.execWriteRequest part record extra s
  | .readCompletion part extra => Sys2Proof.Machine.execReadCompletion part extra s
  | .readStatus part extra => Sys2Proof.Machine.execReadStatus part extra s
  | .spiUnknownOperation op following => Sys2Proof.Machine.execSpiUnknownOperation op following s
  | .csnRiseEarly op following => Sys2Proof.Machine.execCsnRiseEarly op following s
  | .arm c => Sys2Proof.Machine.execArm c s
  | .ack c => Sys2Proof.Machine.execAck c s
  | .soft c => Sys2Proof.Machine.execSoft c s
  | .restartQueue c => Sys2Proof.Machine.execRestartQueue c s
  | .flushQueue c => Sys2Proof.Machine.execFlushQueue c s
  | .fieldReset c => Sys2Proof.Machine.execFieldReset c s
  | .fieldResetRecordOperation part => Sys2Proof.Machine.execFieldResetRecordOperation part s
  | .requestTaking => Sys2Proof.Machine.execRequestTaking s
  | .create part => Sys2Proof.Machine.execCreate part s
  | .find part => Sys2Proof.Machine.execFind part s
  | .read part => Sys2Proof.Machine.execRead part s
  | .amend part => Sys2Proof.Machine.execAmend part s
  | .setPhase part => Sys2Proof.Machine.execSetPhase part s
  | .cancelMove part => Sys2Proof.Machine.execCancelMove part s
  | .hold part => Sys2Proof.Machine.execHold part s
  | .release part => Sys2Proof.Machine.execRelease part s
  | .clearFault part => Sys2Proof.Machine.execClearFault part s
  | .clearNotices part => Sys2Proof.Machine.execClearNotices part s
  | .contact part => Sys2Proof.Machine.execContact part s
  | .retire part => Sys2Proof.Machine.execRetire part s
  | .configureFeeder part => Sys2Proof.Machine.execConfigureFeeder part s
  | .readSheet => Sys2Proof.Machine.execReadSheet s
  | .stageEntry part => Sys2Proof.Machine.execStageEntry part s
  | .startBatch part => Sys2Proof.Machine.execStartBatch part s
  | .cancelBatch part => Sys2Proof.Machine.execCancelBatch part s
  | .readBatch => Sys2Proof.Machine.execReadBatch s
  | .configureLine => Sys2Proof.Machine.execConfigureLine s
  | .lineStart => Sys2Proof.Machine.execLineStart s
  | .lineStop => Sys2Proof.Machine.execLineStop s
  | .readLine => Sys2Proof.Machine.execReadLine s
  | .configureRate => Sys2Proof.Machine.execConfigureRate s
  | .configureSurvey => Sys2Proof.Machine.execConfigureSurvey s
  | .setTime => Sys2Proof.Machine.execSetTime s
  | .configureAttention => Sys2Proof.Machine.execConfigureAttention s
  | .timeCountAdvance => Sys2Proof.Machine.execTimeCountAdvance s
  | .dayRollover part => Sys2Proof.Machine.execDayRollover part s
  | .reportDeadlineReached r => Sys2Proof.Machine.execReportDeadlineReached r s
  | .deadlineExpiry part r => Sys2Proof.Machine.execDeadlineExpiry part r s
  | .coolDownPassed r => Sys2Proof.Machine.execCoolDownPassed r s
  | .huntDueReached r => Sys2Proof.Machine.execHuntDueReached r s
  | .confirmDelayExpiry k => Sys2Proof.Machine.execConfirmDelayExpiry k s
  | .persistenceTimerExpiry f => Sys2Proof.Machine.execPersistenceTimerExpiry f s
  | .balancerSelection part f => Sys2Proof.Machine.execBalancerSelection part f s
  | .settleExpiry => Sys2Proof.Machine.execSettleExpiry s
  | .waveExamination part => Sys2Proof.Machine.execWaveExamination part s
  | .surveyExpiry => Sys2Proof.Machine.execSurveyExpiry s
  | .throttleExpiry => Sys2Proof.Machine.execThrottleExpiry s
  | .linePick l => Sys2Proof.Machine.execLinePick l s
  | .admission part l => Sys2Proof.Machine.execAdmission part l s
  | .pickLookup part l => Sys2Proof.Machine.execPickLookup part l s
  | .frameSent l => Sys2Proof.Machine.execFrameSent l s
  | .frameReceived l wait wave => Sys2Proof.Machine.execFrameReceived l wait wave s
  | .frameGapTimeout l => Sys2Proof.Machine.execFrameGapTimeout l s
  | .turnaroundTimeout l => Sys2Proof.Machine.execTurnaroundTimeout l s
  | .huntStartBitMeasured l wait period => Sys2Proof.Machine.execHuntStartBitMeasured l wait period s
  | .startBitUnclassified l wait => Sys2Proof.Machine.execStartBitUnclassified l wait s
  | .presentProcessing part => Sys2Proof.Machine.execPresentProcessing part s
  | .reportProcessing part => Sys2Proof.Machine.execReportProcessing part s
  | .acceptProcessing part => Sys2Proof.Machine.execAcceptProcessing part s
  | .declineProcessing part => Sys2Proof.Machine.execDeclineProcessing part s
  | .outcomeProcessing part => Sys2Proof.Machine.execOutcomeProcessing part s
  | .slotFreeService part => Sys2Proof.Machine.execSlotFreeService part s
  | .checkExhaustionEnd part k => Sys2Proof.Machine.execCheckExhaustionEnd part k s
  | .lineStopLostEnd part k => Sys2Proof.Machine.execLineStopLostEnd part k s
  | .huntFailureBookkeeping part r => Sys2Proof.Machine.execHuntFailureBookkeeping part r s
  | .uncountedHuntEnd part r => Sys2Proof.Machine.execUncountedHuntEnd part r s
  | .characterReceived l wait wave => Sys2Proof.Machine.execCharacterReceived l wait wave s
  | .unknownControlOperation code c => Sys2Proof.Machine.execUnknownControlOperation code c s

end Sys2Proof.Machine
end

