-- ==== Sys2Proof/Safety.lean ====
section
/-! DEFINITION. The terms claims are stated in: when a command is an event, how a request is answered, what stands
outside an operation, and the laws every step keeps. -/
namespace Sys2Proof.Machine
open Sys2Proof

/-! ### When a command is an event -/

/-- An SPI operation, or the control with this operation byte, comes to its end: whole, where no transaction in progress
has its operation byte yet, or the end of its own; and the transaction is not ignored (R167, R181). -/
def spiEnds (part : SpiPart) (op : Byte) (s : State) : Bool :=
  match part with
  | .whole => s.port.txn.all (fun t => t.op.isNone && !t.ignored)
  | .ends => s.port.txn.any (fun t => t.op == some op && !t.ignored)
  | .selects | .inReset | .begins => false

/-- The port summary a transaction that ends now carries: the one taken when CSn fell (R167). -/
def summaryFor (s : State) : Byte :=
  match s.port.txn with
  | some t => t.summary
  | none => s.portSummary

/-- What SDO shows over a write that comes to its end: the summary, then 00H for each of the bytes the operation takes and
for the further ones; where the operation byte was decoded in a command of its own, the bytes fixed then (R167). -/
def WriteClocked (part : SpiPart) (taken extra : Nat) (s t : State) : Prop :=
  t.port.txn = none
    ∧ (part = .whole → t.port.sdo = summaryFor s :: List.replicate (taken + extra) 0)
    ∧ ∀ x, part = .ends → s.port.txn = some x → t.port.sdo = x.summary :: x.out ++ List.replicate extra 0

/-- The service a Record Store operation ends under and the state its effect starts from: for a whole operation the
claim taken in its turn, for an end the operation in progress (R23, R24). A beginning has no effect of its own. -/
def opened (part : Part) (want : Claim → Bool) (s : State) : Option (Service × State) :=
  match part with
  | .whole => (s.turn want).map (fun w => (s.serviceOf w.claim, (s.take w).freeStore))
  | .ends =>
    match s.store.inProgress with
    | some v => if v.serves want then some (v, s.freeStore) else none
    | none => none
  | .begins => none

/-- A held answer with a function that an operation ends the processing of, the Time Count of its service and the state
its effect starts from (R24). -/
def openedAnswer (part : Part) (fn : Byte) (s : State) : Option (Held × Word32 × State) :=
  match part with
  | .whole =>
    match s.oldestAnswer with
    | some (l, h) =>
      if s.store.inProgress.isNone && h.function == fn then some (h, s.time.count, s.takeAnswer l) else none
    | none => none
  | .ends =>
    match s.store.inProgress with
    | some v =>
      match v.work with
      | .answer h => if h.function = fn then some (h, v.stamp, s.freeStore) else none
      | .claim _ => none
    | none => none
  | .begins => none

/-- A request of a kind is in service and its Record Store operation ends. -/
def storeRequest (part : Part) (k : ReqKind) (q : InService) (v : Service) (s : State) : Prop :=
  s.engine.inService = some q ∧ reqKind q.raw = some k ∧ ∃ u, opened part (· == .request) s = some (v, u)

/-- The conditions of R172 for taking the head of the queue. -/
def mayBeTaken (raw : RawRequest) (s : State) : Prop :=
  s.engine.stopped = false ∧ s.engine.inService = none ∧ s.engine.noneReady = true ∧ s.engine.completions.length < 16
    ∧ (mayPark raw = true → ∃ n, s.park n = none)

/-- A request of a kind that its block serves directly is at the head of the queue, may be taken, and passes the
malformation and CHAIN tests: its taking is its serving (R172). -/
def directRequest (k : ReqKind) (q : InService) (s : State) : Prop :=
  (∃ rest, s.engine.queue = q.raw :: rest) ∧ q.entry = none ∧ mayBeTaken q.raw s ∧ malformed q.raw = false
    ∧ (reqChain q.raw = true → s.engine.previous = .ok) ∧ reqKind q.raw = some k

/-- The part with the head of the request queue gone, which is what a request served as it is taken leaves of the
queue. -/
def taken (s : State) : State := { s with engine := { s.engine with queue := s.engine.queue.tail } }

/-! ### How a request is answered -/

/-- The completion of a request that completes at once (R179). -/
def ownCompletion (q : InService) (st : Status) (result : List Byte) : Completion :=
  { kind := rawKind q.raw, status := st, parked := false, cookie := reqCookie q.raw, result := area result }

/-- The request in service has completed at once: it has left service, its status is the recorded previous status, its
completion is among those appended, COMPLETION is pending unless QUIET withheld it, and the request queue stands
(R172, R175, R176, R178). -/
def Answered (s t : State) (q : InService) (st : Status) (result : List Byte) : Prop :=
  t.engine.inService = none ∧ t.engine.previous = st ∧ t.engine.queue = s.engine.queue
    ∧ t.engine.stopped = s.engine.stopped
    ∧ (∃ l, t.engine.completions = s.engine.completions ++ l ∧ ownCompletion q st result ∈ l)
    ∧ ((reqQuiet q.raw = true ∧ st = .ok) ∨ t.attention.pendingSet &&& Cause.completion.bit ≠ 0)

/-- The request in service has parked in the entry reserved for it, WAITING: it has left service and the recorded
previous status is OK (R172, R175, R177). -/
def ParkedIn (s t : State) (q : InService) (w : WaitsOn) (result slot : Byte) : Prop :=
  t.engine.inService = none ∧ t.engine.previous = .ok ∧ t.engine.queue = s.engine.queue
    ∧ t.engine.stopped = s.engine.stopped
    ∧ ∀ n, q.entry = some n → t.park n = some (parkedEntry q.raw w result slot)

/-! ### The Attention Unit (R182 to R185) -/

/-- The raise condition (R184): an enabled urgent cause is pending, or an enabled routine one and the throttle timer is
not running. -/
def raiseHolds (a : Attention) : Prop :=
  a.pendingSet &&& a.enabledSet &&& 0x0F00#16 ≠ 0
    ∨ (a.pendingSet &&& a.enabledSet &&& 0x003F#16 ≠ 0 ∧ a.timer = none)

/-- The attention part `b` is `a` after an evaluation made in ARMED on the count `now`: RAISED with the throttle timer
started when the condition holds, ATTNn showing a falling edge; unchanged otherwise. A throttle of 0 starts no timer and
leaves one that runs (R184, R185; the model's choice, log 16). -/
def evaluatedTo (a b : Attention) (now : Nat) : Prop :=
  (raiseHolds a → b =
      { a with
        raised := true, timer := if a.throttle = 0 then a.timer else some (now + a.throttle), falls := a.falls + 1 })
    ∧ (¬ raiseHolds a → b = a)

/-- The attention part `b` is `a` after a cause is raised: the cause joins the pending set, and in ARMED the state is
evaluated (R182, R184). -/
def raisedTo (cause : Word16) (a b : Attention) (now : Nat) : Prop :=
  let pending : Attention := { a with pendingSet := a.pendingSet ||| cause }
  (a.raised = true → b = pending) ∧ (a.raised = false → evaluatedTo pending b now)

/-! ### Parked requests (R177, R178) -/

/-- A parked entry WAITING, of a kind, for a record or for none. -/
def Awaits (s : State) (n : ParkNo) (p : Parked) (kind : Byte) (h : Option Handle) : Prop :=
  s.park n = some p ∧ p.kind = kind ∧ p.handle = h ∧ p.ready = none

/-- The completion of a parked request (R179). -/
def parkedCompletion (p : Parked) (st : Status) (result : List Byte) : Completion :=
  { kind := p.kind, status := st, parked := true, cookie := p.cookie, result := area result }

/-- A parked entry has been completed: its completion is among those appended and the entry is free, or the entry is READY
with it and waits for room (R177, R178). -/
def ParkedCompleted (s t : State) (n : ParkNo) (c : Completion) : Prop :=
  (t.park n = none ∧ ∃ l, t.engine.completions = s.engine.completions ++ l ∧ c ∈ l)
    ∨ ∃ p, t.park n = some p ∧ p.ready = some c

/-- Every request of a kind parked for a record is completed with a status, its handle and further bytes. -/
def ParkedFor (s t : State) (i : RecIdx) (kind : Byte) (st : Status) (rest : Parked → List Byte) : Prop :=
  ∀ n p, Awaits s n p kind (some ⟨i, (s.record i).generation⟩) →
    ParkedCompleted s t n (parkedCompletion p st (be16 i.val ++ [(s.record i).generation] ++ rest p))

/-- The entry reserved for a request in service is free, as R172 keeps it. -/
def entryFree (q : InService) (s : State) : Prop := ∀ n, q.entry = some n → s.park n = none

/-- The completion an entry is READY with. -/
def readyAt (s : State) (n : ParkNo) : Option Completion := (s.park n).bind (·.ready)

/-- The READY entries in the order in which they became READY, those that became READY together lowest first (R178). -/
def inReadiness (s : State) : List ParkNo :=
  s.engine.readyOrder.filter (fun n => (readyAt s n).isSome)
    ++ (List.finRange 8).filter (fun n => (readyAt s n).isSome && !s.engine.readyOrder.contains n)

/-- The room for the completions of READY entries: 16 less the records held, less the place of the request in service
(R178). -/
def roomFor (s : State) : Nat := 16 - s.engine.completions.length - (if s.engine.inService.isSome then 1 else 0)

/-- READY entries are posted: in order of readiness, as many as there is room for, each freeing its entry; the rest stay
READY in their order; COMPLETION is raised unless every one posted is OK and QUIET, and the Attention Unit stands otherwise
(R176, R178). -/
def ReadyPosted (s t : State) : Prop :=
  let go := (inReadiness s).take (roomFor s)
  let loud := ∃ n ∈ go, ∃ p c, s.park n = some p ∧ p.ready = some c ∧ ¬ (p.quiet = true ∧ c.status = .ok)
  t.engine.completions = s.engine.completions ++ go.filterMap (readyAt s)
    ∧ (∀ n ∈ go, t.park n = none) ∧ (∀ n, n ∉ go → t.park n = s.park n)
    ∧ inReadiness t = ((inReadiness s).drop (roomFor s)).filter (fun n => !go.contains n)
    ∧ (loud → raisedTo 0x0001#16 s.attention t.attention s.now) ∧ (¬ loud → t.attention = s.attention)

/-! ### What stands -/

/-- The queue of commands, the port, the Rate Table, the survey, the clocks, the enables and the throttle stand. -/
def OutsideStands (s t : State) : Prop :=
  t.pending = s.pending ∧ t.port = s.port ∧ t.rate = s.rate ∧ t.survey = s.survey ∧ t.time = s.time
    ∧ t.attention.enabledSet = s.attention.enabledSet ∧ t.attention.throttle = s.attention.throttle

/-- Every record stands. -/
def TableStands (s t : State) : Prop := t.store.table = s.store.table

/-- The scheduler, the lines, the feeders and the batch stand. -/
def UnitsStand (s t : State) : Prop :=
  t.sched = s.sched ∧ t.lines = s.lines ∧ t.feeders = s.feeders ∧ t.batch = s.batch

/-- Every record but one stands. -/
def OtherRecordsStand (i : RecIdx) (s t : State) : Prop := ∀ j, j ≠ i → t.record j = s.record j

/-- Every slot but one stands. -/
def OtherSlotsStand (k : SlotNo) (s t : State) : Prop := ∀ j, j ≠ k → t.slot j = s.slot j

/-- The lines stand but for the marks of a pick to be made. -/
def LinesStandButMarks (s t : State) : Prop :=
  ∀ l, t.line l = { s.line l with pickWanted := (t.line l).pickWanted, pickAgain := (t.line l).pickAgain }

/-- A cause is pending. -/
def Raised (t : State) (c : Cause) : Prop := t.attention.pendingSet &&& c.bit ≠ 0

/-- The lowest free slot of the Move Table (R52). -/
def LowestFree (s : State) (k : SlotNo) : Prop := s.slot k = none ∧ ∀ j : SlotNo, j < k → s.slot j ≠ none

/-- One entry of the waiting list stands ahead of another: by priority, highest first, then by index (R57). -/
def WaitsAhead (x y : WaitingEntry) : Prop :=
  y.priority < x.priority ∨ (x.priority = y.priority ∧ x.index < y.index)

/-- A record has been told to the Move Scheduler and has its one entry in the waiting list, with the priority told, behind
the entries ahead of it; the entries of other records stand in their order (R57). -/
def Enlisted (i : RecIdx) (priority : Nat) (s t : State) : Prop :=
  ∃ front back, t.sched.waitingList = front ++ ⟨i, priority⟩ :: back
    ∧ front ++ back = s.sched.waitingList.filter (fun e => e.index != i)
    ∧ (∀ x ∈ front, WaitsAhead x ⟨i, priority⟩) ∧ ∀ x, back.head? = some x → ¬ WaitsAhead x ⟨i, priority⟩

/-- A move as it is enqueued for a record (R52, R57). Resolve mode off and attempts left 0 before its admission are the
model's choice (log 47). -/
def enqueued (s : State) (i : RecIdx) (p : Phase) (priority : Nat) (o : Origin) (by' : Option EnqueuedBy) : Move :=
  { index := i, generation := (s.record i).generation, origin := o, enqueuedBy := by', priority := priority,
    toPhase := p, fromPhase := none, state := .queued, sequence := none, resolve := false, attemptsLeft := 0,
    inProgressSeen := 0, entryOrder := s.sched.entryCount + 1, closed := false, confirmDue := none, checkDue := none }

/-- What a feeder is set to stands: its settings, of all the Balance Unit keeps (R85). -/
def FeederSettingsStand (s t : State) : Prop :=
  ∀ f, t.feeder f =
    { s.feeder f with
      sum := (t.feeder f).sum, count := (t.feeder f).count, excluded := (t.feeder f).excluded,
      state := (t.feeder f).state, timer := (t.feeder f).timer,
      selectionPending := (t.feeder f).selectionPending, lastHandle := (t.feeder f).lastHandle }

/-- One record may have changed; the Move Table, the batch and the lines' settings and transactions stand. -/
def OnlyRecord (i : RecIdx) (s t : State) : Prop :=
  OtherRecordsStand i s t ∧ t.sched = s.sched ∧ t.batch = s.batch ∧ LinesStandButMarks s t ∧ FeederSettingsStand s t
    ∧ OutsideStands s t

/-- One record and one slot may have changed; the in-flight counts and the sequences of the lines stand (R54, R55). -/
def OnlyRecordAndSlot (i : RecIdx) (k : SlotNo) (s t : State) : Prop :=
  OtherRecordsStand i s t ∧ OtherSlotsStand k s t ∧ t.sched.inFlight = s.sched.inFlight
    ∧ t.sched.lineSequence = s.sched.lineSequence ∧ FeederSettingsStand s t ∧ OutsideStands s t

/-- A request on a record is served and its handle names the record (R2, R26). -/
def recordRequest (part : Part) (k : ReqKind) (q : InService) (v : Service) (i : RecIdx) (s : State) : Prop :=
  storeRequest part k q v s ∧ (reqHandle q.raw).index = i ∧ s.names (reqHandle q.raw) = true

/-- A command answers the request in service and changes nothing else: no record, no slot, no line, no feeder, no batch,
no setting. -/
def AnswersAlone (c : Instr) (q : InService) (st : Status) (result : List Byte) (s : State) : Prop :=
  ∃ t, exec c s = .next t ∧ Answered s t q st result ∧ TableStands s t ∧ UnitsStand s t ∧ OutsideStands s t

/-- A request served as it is taken is answered, and nothing else changes: no record, no slot, no line, no feeder, no batch,
no setting. -/
def TakingAnswersAlone (c : Instr) (q : InService) (st : Status) (result : List Byte) (s : State) : Prop :=
  ∃ t, exec c s = .next t ∧ Answered (taken s) t q st result ∧ TableStands s t ∧ UnitsStand s t ∧ OutsideStands s t

/-- A record waits with a target (R14). -/
def waitsWith (r : Record) (tg : Target) : Prop :=
  r.state = .active ∧ r.kind = .single ∧ r.target = some tg ∧ r.move = none ∧ r.hold = none ∧ r.fault = none

/-- A slot holds a record's own QUEUED move. -/
def QueuedAt (s : State) (i : RecIdx) (k : SlotNo) (m : Move) : Prop :=
  (s.record i).move = some k ∧ s.slot k = some m ∧ m.index = i ∧ m.state = .queued

/-- A slot holds a record's own move in flight (R53). -/
def FlyingAt (s : State) (i : RecIdx) (k : SlotNo) (m : Move) : Prop :=
  (s.record i).move = some k ∧ s.slot k = some m ∧ m.index = i ∧ m.state ≠ .queued

/-- An event of R136 has reached a line: RUNNING and IDLE with room in its hold it has a pick to make, PICKING it
notes it (log 7). -/
def PickTold (s t : State) (l : LineNo) : Prop :=
  ((s.line l).state = .running → (s.line l).activity = .idle → (s.line l).receiveHold.length < 2 →
      (t.line l).pickWanted = true)
    ∧ ((s.line l).state = .running → (s.line l).activity = .picking → (t.line l).pickAgain = true)

/-- A claim waits at the store (R24). -/
def Claimed (t : State) (c : Claim) : Prop := ∃ w ∈ t.store.claims, w.claim = c

/-! ### The halt of a line (R79, R121) -/

/-- The moves in flight of a line's feeders when the line is halted (R79): each slot not yet closed is closed, its confirm
delay stopped and its CHECK no longer due, and its LOST end is claimed with its sequence number; every move in flight
holds one (log 28). -/
def MovesClosed (l : LineNo) (s t : State) : Prop :=
  ∀ k m, s.slot k = some m → m.state ≠ .queued → m.closed = false → s.lineOfRecord m.index = l →
    t.slot k = some { m with closed := true, confirmDue := none, checkDue := none }
      ∧ Claimed t (.lineStopLost k ⟨m.index, m.generation⟩ (m.sequence.getD 0))

/-- The hunts in progress on a line when it is halted (R121, R139): the outstanding SUMMON and each PRESENT in the hold has
its uncounted end claimed. -/
def HuntsAbandoned (l : LineNo) (s t : State) : Prop :=
  (∀ x, (s.line l).out = some x → x.kind = .summon → Claimed t (.uncountedHunt ⟨x.index, x.generation⟩))
    ∧ ∀ h ∈ (s.line l).receiveHold, h.function = 0x81 →
        Claimed t (.uncountedHunt ⟨h.binding.index, h.binding.generation⟩)

/-- What a halt of lines leaves at the Move Table and the store: every slot but those it closes, and every claim that
waited. -/
def HaltLeaves (halted : LineNo → Prop) (s t : State) : Prop :=
  (∀ k, (∀ m, s.slot k = some m → m.state = .queued ∨ m.closed = true ∨ ¬ halted (s.lineOfRecord m.index)) →
      t.slot k = s.slot k)
    ∧ ∀ w ∈ s.store.claims, w ∈ t.store.claims

/-! ### The end of a batch, and the notices of a move's end (R95, R110 to R113, R115) -/

/-- The bytes of a START BATCH completion: the last wave begun and the counts of DONE, ALREADY, FAILED, REFUSED, FLUSHED
and ABORTED (R113, 11.3). -/
def batchCounts (b : Batch) : List Byte :=
  let count (test : EntryResult → Bool) : Byte := byteOf (b.entries.countP (fun e => test e.result))
  [byteOf b.waveNumber, count (fun r => decide (r = .done)), count (fun r => decide (r = .already)),
   count (fun r => match r with | .failed _ => true | _ => false),
   count (fun r => match r with | .refused _ => true | _ => false),
   count (fun r => decide (r = .flushed)), count (fun r => decide (r = .aborted))]

/-- The batch `b` has ended: ENDED with nothing running, and its parked START BATCH completed with a status (R113). -/
def BatchEnded (b : Batch) (st : Status) (s t : State) : Prop :=
  t.batch =
      { b with
        state := .ended, settleDue := none, examinationPending := false, stalled := false, next := none,
        startParked := false }
    ∧ (b.startParked = true → ∀ n p, Awaits s n p 0x19 none →
        ParkedCompleted s t n (parkedCompletion p st (batchCounts b)))

/-- An entry index of the batch's wave (R107). -/
def inWave (b : Batch) (k : Nat) : Prop := ∃ x y, b.waveFirst = some x ∧ b.waveLast = some y ∧ x ≤ k ∧ k ≤ y

/-- The wave of the batch `b` has ended (R111): stop-on-failure flushes the rest and ends the batch, the end of the list
ends it, a settle is waited out, and with none the next wave begins (R112). -/
def WaveEnded (b : Batch) (s t : State) : Prop :=
  let stops := b.stopOnFailure = true ∧ ∃ k e r, inWave b k ∧ b.entries[k]? = some e ∧ e.result = .failed r
  let settle := b.settle.getD 0
  (stops →
    BatchEnded
      { b with entries := b.entries.map (fun e => if e.result = .pending then { e with result := .flushed } else e) }
      .ok s t)
  ∧ (¬ stops → b.waveLast = some (b.entries.length - 1) → BatchEnded b .ok s t)
  ∧ ∀ y, ¬ stops → b.waveLast = some y → y ≠ b.entries.length - 1 →
      (0 < settle → t.batch = { b with state := .settling, settleDue := some (s.now + 10 * settle) })
      ∧ (settle = 0 → Claimed t .wave ∧
          t.batch =
            { b with
              state := .running, waveNumber := b.waveNumber + 1, waveFirst := some (y + 1),
              waveLast := some (min (y + 1 + b.waveSize.getD 1 - 1) (b.entries.length - 1)), next := some (y + 1),
              examinationPending := true, settleDue := none })

/-- The result a move's end gives its entry (R110). -/
def entryResultOf (res : MoveResult) : EntryResult :=
  if res = .done then .done else if res = .already then .already else .failed res

/-- The Batch Engine has been told of the end of a move whose slot was freed (R76, R109, R110, R111, R115): an entry IN_MOVE
of the move's handle takes the result, and the end of the wave, or of a cancelled batch, is tested; a stalled wave claims
its examination. -/
def BatchTold (s t : State) (m : Move) (res : MoveResult) : Prop :=
  let b := s.batch
  let resumed (c : Batch) : Prop :=
    t.batch = { c with examinationPending := b.examinationPending || b.stalled } ∧ (b.stalled = true → Claimed t .wave)
  let applies (k : Nat) (e : Entry) : Prop := m.enqueuedBy = some (.batch k) ∧ b.entries[k]? = some e
    ∧ e.result = .inMove ∧ e.handle = ⟨m.index, m.generation⟩
  ((∀ k e, ¬ applies k e) → resumed b)
  ∧ ∀ k e, applies k e →
      let c : Batch := { b with entries := b.entries.set k { e with result := entryResultOf res } }
      let waveDone := b.state = .running ∧ b.next = none
        ∧ ∀ j x, inWave b j → c.entries[j]? = some x → x.result ≠ .inMove
      let allTold := b.state = .cancelling ∧ ∀ x ∈ c.entries, x.result ≠ .inMove
      (waveDone → b.stalled = false → WaveEnded c s t)
      ∧ (allTold → BatchEnded c .cancelled s t)
      ∧ (¬ waveDone → ¬ allTold → resumed c)

/-- The Balance Unit has been told of the end of a move enqueued by BALANCER (R95): a feeder ACTING on that record leaves
ACTING, WATCHING or CALM by its spread. -/
def BalancerTold (s t : State) (m : Move) : Prop :=
  let f := (s.record m.index).feeder
  m.enqueuedBy = some .balancer → (s.feeder f).state = .acting →
    (s.feeder f).lastHandle = some ⟨m.index, m.generation⟩ →
    ((t.feeder f).above = true →
        (t.feeder f).state = .watching ∧ (t.feeder f).timer = some (s.now + 10 * (s.feeder f).persistence))
      ∧ ((t.feeder f).above = false → (t.feeder f).state = .calm ∧ (t.feeder f).timer = none)

/-- The blocks that enqueued a move have been told of its end (R76). -/
def EndTold (s t : State) (m : Move) (res : MoveResult) : Prop := BatchTold s t m res ∧ BalancerTold s t m

/-! ### QUEUED moves that one operation ends together (R63, R75, R96, R114) -/

/-- The record after its QUEUED move ended ABORTED or BUDGET_SPENT with its target removed (R73 to R75). -/
def withdrawnRecord (r : Record) (m : Move) (res : MoveResult) (stamp : Word32) : Record :=
  { r with
    move := none, target := none, lastMove := some ⟨res, m.origin, stamp⟩
    notices := if res = .budgetSpent then { r.notices with moveFailed := true } else r.notices }

/-- The Batch Engine has been told of the ends of moves (R76, R109 to R111, R115): each entry IN_MOVE that one of them was
enqueued for takes the result; once the last is told the end of the wave, or of a cancelled batch, is tested; a stalled
wave claims its examination. Where the moves are of entries of the wave their last end ends it. -/
def BatchToldOf (s t : State) (gone : SlotNo → Move → Prop) (res : MoveResult) : Prop :=
  let b := s.batch
  let ended (k : SlotNo) (m : Move) : Prop := s.slot k = some m ∧ gone k m
  let applies (k : Nat) (e : Entry) : Prop := b.entries[k]? = some e ∧ e.result = .inMove
    ∧ ∃ j m, ended j m ∧ m.enqueuedBy = some (.batch k) ∧ e.handle = ⟨m.index, m.generation⟩
  let resumed (c : Batch) : Prop :=
    t.batch = { c with examinationPending := b.examinationPending || b.stalled } ∧ (b.stalled = true → Claimed t .wave)
  ((∀ k m, ¬ ended k m) → t.batch = b)
  ∧ ((∃ k m, ended k m) → (∀ k e, ¬ applies k e) → resumed b)
  ∧ ∀ c : Batch, c = { b with entries := c.entries } → c.entries.length = b.entries.length →
      (∀ k e, b.entries[k]? = some e →
        (applies k e → c.entries[k]? = some { e with result := entryResultOf res })
          ∧ (¬ applies k e → c.entries[k]? = some e)) →
      (∃ k e, applies k e) →
      let waveDone := b.state = .running ∧ b.next = none
        ∧ ∀ j x, inWave b j → c.entries[j]? = some x → x.result ≠ .inMove
      let allTold := b.state = .cancelling ∧ ∀ x ∈ c.entries, x.result ≠ .inMove
      (waveDone → b.stalled = false → (∀ k e, applies k e → inWave b k) → WaveEnded c s t)
      ∧ (allTold → BatchEnded c .cancelled s t)
      ∧ (¬ waveDone → ¬ allTold → resumed c)

/-- QUEUED moves have ended in one operation: each slot free, each record with its target removed and its last move result
written, each parked WAIT ABORTED, or MOVE_FAILED with BUDGET_SPENT, and MOVE_FAILED raised for BUDGET_SPENT (R41, R63,
R73 to R75). -/
def QueuedEnded (s t : State) (gone : SlotNo → Move → Prop) (res : MoveResult) (stamp : Word32) : Prop :=
  ∀ k m, s.slot k = some m → gone k m →
    t.slot k = none ∧ t.record m.index = withdrawnRecord (s.record m.index) m res stamp
      ∧ ((s.record m.index).target ≠ none → res = .aborted → ParkedFor s t m.index 0x05 .aborted (fun _ => []))
      ∧ (res = .budgetSpent → Raised t .moveFailed
          ∧ ((s.record m.index).target ≠ none → ParkedFor s t m.index 0x05 .moveFailed (fun _ => [0, 0, 9])))

/-- The records and the slots that moves ended together do not touch stand. -/
def OthersStand (s t : State) (gone : SlotNo → Move → Prop) : Prop :=
  (∀ i, (∀ k m, s.slot k = some m → gone k m → m.index ≠ i) → t.record i = s.record i)
    ∧ ∀ k, (∀ m, s.slot k = some m → ¬ gone k m) → t.slot k = s.slot k

/-- The lines stand but for the marks of a pick to be made and for bindings of the slots of QUEUED moves ended, which a line
holds in no run. -/
def LinesStandButEnded (s t : State) (gone : SlotNo → Move → Prop) : Prop :=
  ∀ l, t.line l =
        { s.line l with
          bindings := (t.line l).bindings, pickWanted := (t.line l).pickWanted, pickAgain := (t.line l).pickAgain }
      ∧ (∀ b ∈ (t.line l).bindings, b ∈ (s.line l).bindings)
      ∧ ∀ b ∈ (s.line l).bindings, (∀ m, s.slot b.slot = some m → ¬ gone b.slot m) → b ∈ (t.line l).bindings

/-! ### The laws every step keeps -/

/-- What a record's standing adds to the sum of a phase (R12). -/
def Standing.sumAt (p : Phase) : Standing → Int
  | .absent | .excluded => 0
  | .one q i => if q = p then i else 0
  | .three i => i.get p

/-- What a record's standing adds to the contributor count of a phase (R12). -/
def Standing.countAt (p : Phase) : Standing → Nat
  | .absent | .excluded => 0
  | .one q _ => if q = p then 1 else 0
  | .three _ => 1

/-- What a record's standing adds to the excluded count (R12). -/
def Standing.excludedCount : Standing → Nat
  | .excluded => 1
  | .absent | .one _ _ | .three _ => 0

/-- The standing of a record in a feeder's tally: absent in every tally but its own feeder's. -/
def Record.standingIn (f : FeederNo) (r : Record) : Standing := if r.feeder = f then r.standing else .absent

/-- The law of R88: every sum and count is that of the feeder's contributing records, and the excluded count that of its
excluded ones. -/
def TallyLaw (s : State) : Prop :=
  ∀ f : FeederNo,
    (∀ p : Phase,
      (s.feeder f).sum.get p = (s.store.table.toList.map (fun r => (r.standingIn f).sumAt p)).sum
        ∧ (s.feeder f).count.get p = (s.store.table.toList.map (fun r => (r.standingIn f).countAt p)).sum)
    ∧ (s.feeder f).excluded = (s.store.table.toList.map (fun r => (r.standingIn f).excludedCount)).sum

/-- The law of R5, with what CREATE and CONFIGURE FEEDER keep it by: every record that is not VACANT is on a configured
feeder, no two share a service key, and no two on one line share a unit address. -/
def IdentityLaw (s : State) : Prop :=
  (∀ i, (s.record i).state ≠ .vacant → (s.feeder (s.record i).feeder).configured = true)
    ∧ ∀ i j, i ≠ j → (s.record i).state ≠ .vacant → (s.record j).state ≠ .vacant →
        (s.record i).serviceKey ≠ (s.record j).serviceKey
          ∧ (s.lineOfRecord i = s.lineOfRecord j → (s.record i).unitAddress ≠ (s.record j).unitAddress)

/-- The laws of the Move Table and the table together (R10, R52 to R54): a record's move names a slot that holds a move of
that record, and the other way round; a QUEUED move's record is ACTIVE and a move in flight is of an ACTIVE or a
RETIRING record; a VACANT record holds the vacant values; and each feeder's in-flight count is the number of its
moves in flight. -/
def MoveTableLaw (s : State) : Prop :=
  (∀ i k, (s.record i).move = some k → ∃ m, s.slot k = some m ∧ m.index = i)
    ∧ (∀ k m, s.slot k = some m →
        (s.record m.index).move = some k ∧ m.generation = (s.record m.index).generation
          ∧ ((s.record m.index).state = .active ∨ ((s.record m.index).state = .retiring ∧ m.state ≠ .queued)))
    ∧ (∀ i, (s.record i).state = .vacant → s.record i = Record.vacant (s.record i).generation)
    ∧ ∀ f : FeederNo, s.sched.inFlight[f] =
        s.sched.slots.toList.countP (fun o => o.any (fun m => m.state != .queued && (s.record m.index).feeder == f))

/-- The laws of targets. Only an ACTIVE SINGLE record has a target (R8 to R11, R60), and a PROVISIONAL or THREE record has no
move (R8, R60); the target of a QUEUED move's record has the move's to-phase; a target is in the allowed set, and while no
move of the record is in flight it differs from the present phase (R60). -/
def TargetLaw (s : State) : Prop :=
  (∀ i, (s.record i).state ≠ .active ∨ (s.record i).kind = .three → (s.record i).target = none)
    ∧ (∀ i, (s.record i).state = .provisional ∨ (s.record i).kind = .three → (s.record i).move = none)
    ∧ (∀ k m, s.slot k = some m → m.state = .queued →
        ∃ tg, (s.record m.index).target = some tg ∧ tg.phase = m.toPhase)
    ∧ ∀ i tg, (s.record i).target = some tg → (s.record i).allowed.get tg.phase = true
        ∧ ((∀ k m, ¬ FlyingAt s i k m) → (s.record i).phase ≠ some tg.phase)

/-- A line that is not RUNNING is IDLE with no transaction, an empty hold and no round (R119). -/
def StoppedLineLaw (s : State) : Prop :=
  ∀ l, (s.line l).state ≠ .running →
    (s.line l).activity = .idle ∧ (s.line l).out = none ∧ (s.line l).receiveHold = [] ∧ (s.line l).round = none

/-- The request queue holds at most 16 records, and the completion queue at most 16 with the place of the request in
service counted (R168, R172, R178). -/
def CapacityLaw (s : State) : Prop :=
  s.engine.queue.length ≤ 16
    ∧ s.engine.completions.length + (if s.engine.inService.isSome then 1 else 0) ≤ 16

/-- The order of the Rate Table (R141): the maxima rise strictly, each bit length is at least 8 and at most its entry's
maximum. -/
def RateLaw (s : State) : Prop :=
  (∀ c d : RateNo, c < d → s.maxStart c < s.maxStart d) ∧ ∀ c : RateNo, 8 ≤ s.bitLength c ∧ s.bitLength c ≤ s.maxStart c

/-- The law of the staging list (R103): at most 64 entries, no two of one record index. -/
def StagingLaw (s : State) : Prop :=
  s.batch.entries.length ≤ 64 ∧ (s.batch.entries.map (fun e => e.handle.index)).Nodup

/-- The law of the waiting list (R57): priority, highest first, then index, lowest first; each index at most once. -/
def WaitingListLaw (s : State) : Prop :=
  s.sched.waitingList.Pairwise WaitsAhead ∧ (s.sched.waitingList.map (·.index)).Nodup

/-- The law of the receive holds (R24, R135): each holds its answers in the order in which they entered, none later than
the present moment. -/
def HoldOrderLaw (s : State) : Prop :=
  ∀ l, (s.line l).receiveHold.Pairwise (fun x y => x.entered ≤ y.entered)
    ∧ ∀ h ∈ (s.line l).receiveHold, h.entered ≤ s.moment

end Sys2Proof.Machine
end

