-- ==== Sys2Proof/Certificates/Slice0/Obligations.lean ====
section
/-! DEFINITION. The statements for the provers: what the commands do by the spec's rules, and the laws every step
keeps. -/
open Sys2Proof Sys2Proof.Machine

/-! ### The queue of commands and the resets -/

/-- A step runs the command at the front of the queue on the state with the queue's rest; with none waiting the part
idles (the model's choice, log 3). -/
def Obligations.StepRunsFrontCommand : Prop :=
  ∀ (s : State) (c : Instr) (rest : List Instr),
    (s.pending = c :: rest → step s = exec c { s with pending := rest }) ∧ (s.pending = [] → step s = .next s)

/-- A full reset returns every block to its full-reset values (R1, R52 to R57, R85, R88, R92, R103, R104, R119, R141,
R154, R155, R158, R181, R188). That SDO, the hunt's reason, the window, the transmitter and the receiver stand as in
State.reset is the model's choice (log 22), that the queue of commands and the counter of the free values are kept is the
model's choice (log 23), and so are the fields of its own at 0, no or empty (log 4, log 6, log 7, log 42). -/
def Obligations.FullResetLeavesResetValues : Prop :=
  ∀ s : State, ∃ t, exec .fullReset s = .next t ∧ t.pending = s.pending ∧ t = { State.reset with pending := s.pending, free := s.free }
    ∧ (∀ i, (t.record i).state = .vacant ∧ t.record i = Record.vacant 0) ∧ t.store.claims = [] ∧ t.store.inProgress = none
    ∧ (∀ k, t.slot k = none) ∧ (∀ f : FeederNo, t.sched.inFlight[f] = 0) ∧ (∀ l : LineNo, t.sched.lineSequence[l] = 0)
    ∧ t.sched.entryCount = 0 ∧ t.sched.waitingList = []
    ∧ (∀ f, let x := t.feeder f
        x.configured = false ∧ x.line = 0 ∧ x.inFlightLimit = 1 ∧ x.coolDown = 900 ∧ x.threshold = 200
          ∧ x.persistence = 120 ∧ x.enable = false ∧ x.priority = 2 ∧ x.sum = ⟨0, 0, 0⟩ ∧ x.count = ⟨0, 0, 0⟩
          ∧ x.excluded = 0 ∧ x.state = .off ∧ x.timer = none ∧ x.selectionPending = false ∧ x.lastHandle = none)
    ∧ t.batch.entries = [] ∧ t.batch.state = .empty ∧ t.batch.waveSize = none ∧ t.batch.settle = none
    ∧ t.batch.stopOnFailure = false ∧ t.batch.priority = 0 ∧ t.batch.waveNumber = 0 ∧ t.batch.waveFirst = none
    ∧ t.batch.waveLast = none ∧ t.batch.next = none ∧ t.batch.examinationPending = false ∧ t.batch.stalled = false
    ∧ t.batch.settleDue = none ∧ t.batch.startParked = false
    ∧ (∀ l, let x := t.line l
        x.state = .stopped ∧ x.activity = .idle ∧ x.pickAgain = false ∧ x.run = 0 ∧ x.out = none ∧ x.attemptsLeft = 0
          ∧ x.timer = .stopped ∧ x.silence = 0 ∧ x.receiveHold = [] ∧ x.bindings = [] ∧ x.round = none
          ∧ x.retryLimit = 2 ∧ x.turnaround = 25 ∧ x.confirmDelay = 10 ∧ x.silenceLimit = 16 ∧ x.huntInterval = 60)
    ∧ t.rate.toList.map (fun e => (e.bitLength.toNat, e.maxStart.toNat)) =
        [(35, 36), (52, 54), (104, 109), (208, 218), (417, 437), (833, 875), (1667, 1750), (3333, 3500)]
    ∧ t.survey = ⟨false, 60, none⟩ ∧ t.time.count = 0 ∧ t.time.elapsed = 0
    ∧ t.engine.queue = [] ∧ t.engine.stopped = false ∧ t.engine.inService = none ∧ t.engine.previous = .ok
    ∧ (∀ n, t.park n = none) ∧ t.engine.completions = [] ∧ t.engine.readyOrder = []
    ∧ t.port = ⟨none, []⟩ ∧ t.attention.raised = false ∧ t.attention.pendingSet = 0 ∧ t.attention.enabledSet = 0x0F3F#16
    ∧ t.attention.throttle = 10 ∧ t.attention.timer = none

/-- A batch is under way (R104). -/
def batchBusy (b : BatchState) : Prop := b = .running ∨ b = .settling ∨ b = .cancelling

/-- The parked list after a field reset, from `s` to `u`, before any completion is posted (R28, R118, R151): a CONTACT for a
record on a line that was RUNNING is READY with LINE_STOPPED, the START BATCH of a batch under way with ABORTED and the
counts of the entries as the field reset left them, and every other entry stands. -/
def FieldResetParks (s u : State) (entries : List Entry) : Prop :=
  ∀ n, (s.park n = none → u.park n = none) ∧ ∀ p, s.park n = some p →
    let halted (h : Handle) := p.handle = some h ∧ (s.line (s.lineOfRecord h.index)).state = .running
    let contact := p.ready = none ∧ p.kind = 0x0B
    let start := p.ready = none ∧ p.kind = 0x19 ∧ s.batch.startParked = true ∧ batchBusy s.batch.state
    (∀ h, contact → halted h →
      u.park n = some
        { p with ready := some (parkedCompletion p .lineStopped (be16 h.index.val ++ [h.generation])) })
    ∧ (start → p.handle = none →
      u.park n = some
        { p with ready := some (parkedCompletion p .aborted (batchCounts { s.batch with entries := entries })) })
    ∧ (¬ (contact ∧ ∃ h, halted h) → ¬ start → u.park n = some p)

/-- A FIELD RESET, when its control is taken, stops both lines with nothing outstanding, takes every balancer that is not
OFF to CALM or, with the spread above the threshold, to WATCHING, turns the survey off, empties the waiting list, ends
a running batch, claims its record operation, and keeps the rest: the claims that waited, the queues, the pending set and
every other parked entry. A Record Store operation in progress goes on, marked overtaken: what it hands the balancers and
the batch is not applied (R25, R98, R118). Each move in flight on a line that was RUNNING is closed
and its LOST end claimed, and each hunt in progress on it has its uncounted end claimed (R79, R121, R139; every move in
flight holds a sequence number, log 28). A CONTACT parked for a record on a line that was RUNNING completes LINE_STOPPED,
and the parked START BATCH of a running batch ABORTED (R25, R28, R98, R113, R118, R122, R158, R180, R57); the READY entries
are posted as room allows (R178), which alone may raise a cause. -/
def Obligations.FieldResetStopsEverything : Prop :=
  ∀ (c : Control) (s : State), spiEnds c.part 4 s = true →
    ∃ t, exec (.fieldReset c) s = .next t
      ∧ (∀ l, (t.line l).state = .stopped
          ∧ ((s.line l).state ≠ .stopped →
              (t.line l).run = (s.line l).run ∧ (t.line l).silence = (s.line l).silence
                ∧ (t.line l).settings = (s.line l).settings)
          ∧ ((s.line l).state = .suspended → t.line l = { s.line l with state := .stopped })
          ∧ ((s.line l).state = .running →
              (t.line l).pickAgain = false ∧ (t.line l).pickWanted = false ∧ (t.line l).timer = .stopped ∧
              (t.line l).activity = .idle ∧ (t.line l).out = none ∧ (t.line l).receiveHold = []
                ∧ (t.line l).round = none ∧ (t.line l).attemptsLeft = 0 ∧ (t.line l).bindings = [])
          ∧ ((s.line l).state = .stopped → t.line l = s.line l))
      ∧ (∀ f, t.feeder f =
          if (s.feeder f).state = .off then s.feeder f
          else if (s.feeder f).above then
            { s.feeder f with
              state := .watching, timer := some (s.now + 10 * (s.feeder f).persistence), selectionPending := false }
          else { s.feeder f with state := .calm, timer := none, selectionPending := false })
      ∧ t.survey = { s.survey with enable := false, timer := none } ∧ t.sched.waitingList = []
      ∧ t.sched.inFlight = s.sched.inFlight ∧ t.sched.lineSequence = s.sched.lineSequence
      ∧ t.sched.entryCount = s.sched.entryCount
      ∧ (∀ l, (s.line l).state = .running → MovesClosed l s t ∧ HuntsAbandoned l s t)
      ∧ HaltLeaves (fun l => (s.line l).state = .running) s t
      ∧ (batchBusy s.batch.state →
          t.batch.entries =
              s.batch.entries.map (fun e =>
                if e.result = .pending then { e with result := .flushed }
                else if e.result = .inMove then { e with result := .aborted } else e)
            ∧ BatchEnded { s.batch with entries := t.batch.entries } .aborted s t)
      ∧ ((s.batch.state = .empty ∨ s.batch.state = .staging ∨ s.batch.state = .ended) → t.batch = s.batch)
      ∧ (∀ i, (s.line (s.lineOfRecord i)).state = .running → ParkedFor s t i 0x0B .lineStopped (fun _ => []))
      ∧ Claimed t .fieldReset
      ∧ (∃ l, t.store.claims = s.store.claims ++ l ∧ ∀ w ∈ l, w.arose = s.moment + 1)
      ∧ t.store.inProgress = s.store.inProgress.map (fun v => { v with overtaken := true })
      ∧ (∃ u, u = { s with engine := { s.engine with parked := u.engine.parked } } ∧ FieldResetParks s u t.batch.entries
          ∧ ReadyPosted u t)
      ∧ WriteClocked c.part 4 c.extra s t
      ∧ t = { s with
          port := t.port, store := t.store, sched := t.sched, lines := t.lines, feeders := t.feeders, batch := t.batch
          survey := t.survey, engine := t.engine, attention := t.attention, moment := s.moment + 1, free := t.free }
      ∧ TableStands s t
      ∧ t.engine.queue = s.engine.queue ∧ t.engine.stopped = s.engine.stopped
      ∧ t.engine.inService = s.engine.inService ∧ t.engine.previous = s.engine.previous
      ∧ t.attention.enabledSet = s.attention.enabledSet ∧ t.attention.throttle = s.attention.throttle

/-- The field reset's record operation ends every QUEUED move and removes every target, and a parked WAIT whose target
goes completes ABORTED; every other field of a record is kept, RETIRING ones included, but for the last move result of a
record whose QUEUED move ended, which a move's end writes (R25, R28; the model's choice, log 35). The Batch Engine and the
Balance Unit are told of the moves they enqueued (R76, R95, R110). The lines stand but for their picks' marks and for a
binding of a slot whose move was QUEUED, which a line holds in no run. -/
def Obligations.FieldResetRemovesQueuedMovesAndTargets : Prop :=
  ∀ (part : Part) (s u : State) (v : Service), opened part (· == .fieldReset) s = some (v, u) →
    ∃ t, exec (.fieldResetRecordOperation part) s = .next t
      ∧ (∀ k m, t.slot k = some m → m.state ≠ .queued ∧ s.slot k = some m)
      ∧ (∀ k m, s.slot k = some m → m.state ≠ .queued → t.slot k = some m)
      ∧ t.sched = { s.sched with slots := t.sched.slots }
      ∧ (∀ i, (t.record i).target = none)
      ∧ (∀ i, (s.record i).target ≠ none → ParkedFor s t i 0x05 .aborted (fun _ => []))
      ∧ (∀ i, (s.record i).state ≠ .retiring →
          t.record i =
            { s.record i with
              target := none, move := (t.record i).move, lastMove := (t.record i).lastMove })
      ∧ (let gone (_ : SlotNo) (m : Move) := m.state = .queued
        MoveTableLaw s →
          QueuedEnded s t gone .aborted v.stamp ∧ BatchToldOf s t gone .aborted
            ∧ (∀ k m, s.slot k = some m → gone k m → BalancerTold s t m)
            ∧ ∀ i, (∀ k m, ¬ QueuedAt s i k m) → t.record i = { s.record i with target := none })
      ∧ FeederSettingsStand s t ∧ OutsideStands s t
      ∧ ∀ l, t.line l =
            { u.line l with
              bindings := (t.line l).bindings, pickWanted := (t.line l).pickWanted,
              pickAgain := (t.line l).pickAgain }
          ∧ (∀ b ∈ (t.line l).bindings, b ∈ (u.line l).bindings)
          ∧ ∀ b ∈ (u.line l).bindings, (∀ m, s.slot b.slot = some m → m.state ≠ .queued) → b ∈ (t.line l).bindings

/-! ### The store's service -/

/-- The requests the Record Store serves, each with the command of its operation (R172). -/
def requestOperations (part : Part) : List (ReqKind × Instr) :=
  [(.create, .create part), (.find, .find part), (.read, .read part), (.amend, .amend part),
   (.setPhase, .setPhase part), (.cancelMove, .cancelMove part), (.hold, .hold part), (.release, .release part),
   (.clearFault, .clearFault part), (.clearNotices, .clearNotices part), (.contact, .contact part),
   (.retire, .retire part), (.configureFeeder, .configureFeeder part), (.stageEntry, .stageEntry part),
   (.startBatch, .startBatch part), (.cancelBatch, .cancelBatch part)]

/-- The answers' function codes, each with the command of its processing (11.5). -/
def answerOperations (part : Part) : List (Byte × Instr) :=
  [(0x81, .presentProcessing part), (0x82, .reportProcessing part), (0x83, .acceptProcessing part),
   (0x84, .declineProcessing part), (0x85, .outcomeProcessing part)]

/-- A command serves a claim: it is the claim's operation, and for a request that of the kind in service. -/
def servesClaim (part : Part) (s : State) (c : Instr) (x : Claim) : Prop :=
  match x with
  | .request => ∃ k q, (k, c) ∈ requestOperations part ∧ s.engine.inService = some q ∧ reqKind q.raw = some k
  | .admission l _ => c = .admission part l
  | .pickLookup l _ => c = .pickLookup part l
  | .checkExhausted k _ _ => c = .checkExhaustionEnd part k
  | .lineStopLost k _ _ => c = .lineStopLostEnd part k
  | .slotFree => c = .slotFreeService part
  | .huntFailure h _ => c = .huntFailureBookkeeping part h.index
  | .uncountedHunt h => c = .uncountedHuntEnd part h.index
  | .deadline h _ => c = .deadlineExpiry part h.index
  | .dayRollover => c = .dayRollover part
  | .selection f => c = .balancerSelection part f
  | .wave => c = .waveExamination part
  | .fieldReset => c = .fieldResetRecordOperation part

/-- A command processes a held answer: it is that of the answer's function. -/
def servesAnswer (part : Part) (c : Instr) (h : Held) : Prop := (h.function, c) ∈ answerOperations part

/-- The commands that are Record Store operations, with a part. -/
def storeOperation (part : Part) (c : Instr) : Prop :=
  (∃ k, (k, c) ∈ requestOperations part) ∨ (∃ fn, (fn, c) ∈ answerOperations part)
    ∨ c ∈ [.dayRollover part, .waveExamination part, .slotFreeService part, .fieldResetRecordOperation part]
    ∨ (∃ i, c = .deadlineExpiry part i ∨ c = .huntFailureBookkeeping part i ∨ c = .uncountedHuntEnd part i)
    ∨ (∃ f, c = .balancerSelection part f) ∨ (∃ l, c = .admission part l ∨ c = .pickLookup part l)
    ∨ ∃ k, c = .checkExhaustionEnd part k ∨ c = .lineStopLostEnd part k

/-- It is a waiting claim's turn (R24): the store is free, no answer waits in either hold, and no claim that arose before it
waits. -/
def itsTurn (s : State) (w : Waiting) : Prop :=
  s.store.inProgress = none ∧ (∀ l, (s.line l).receiveHold = []) ∧ w ∈ s.store.claims
    ∧ ∀ x ∈ s.store.claims, w.arose ≤ x.arose

/-- What a service keeps of the moment it was served. -/
def servedAt (v : Service) (s : State) : Prop :=
  v.stamp = s.time.count ∧ v.elapsed = s.now ∧ (∀ l : LineNo, v.lines[l] = (s.line l).state)
    ∧ v.batch = s.batch.state ∧ v.overtaken = false

/-- What the serving of a claim tests (R93, R107, R138), kept for the operation. -/
def testedAt (v : Service) (c : Claim) (s : State) : Prop :=
  match c with
  | .admission l run | .pickLookup l run => (v.passed = true ↔ (s.line l).state = .running ∧ (s.line l).run = run)
  | .selection f => v.passed = (s.feeder f).selectionPending
  | .wave => (v.passed = true ↔ s.batch.state = .running ∧ s.batch.examinationPending = true) ∧ v.next = s.batch.next
  | .request | .checkExhausted _ _ _ | .lineStopLost _ _ _ | .slotFree | .huntFailure _ _ | .uncountedHunt _
  | .deadline _ _ | .dayRollover | .fieldReset => v.passed = true

/-- The marks the serving of a claim removes (R94, R107; the model's choice, log 38). -/
def marksRemoved (c : Claim) (s t : State) : Prop :=
  match c with
  | .selection f => t.feeder f = { s.feeder f with selectionPending := false }
      ∧ (∀ g, g ≠ f → t.feeder g = s.feeder g) ∧ t.batch = s.batch
  | .wave => t.feeders = s.feeders
      ∧ (s.batch.state = .running → s.batch.examinationPending = true →
          t.batch = { s.batch with examinationPending := false, stalled := false })
      ∧ (¬ (s.batch.state = .running ∧ s.batch.examinationPending = true) → t.batch = s.batch)
  | .request | .admission _ _ | .pickLookup _ _ | .checkExhausted _ _ _ | .lineStopLost _ _ _ | .slotFree
  | .huntFailure _ _ | .uncountedHunt _ | .deadline _ _ | .dayRollover | .fieldReset =>
    t.feeders = s.feeders ∧ t.batch = s.batch

/-- The Record Store serves one operation at a time, the oldest waiting answer first and then the claim that arose first,
those that arose together in either order (R23, R24). A beginning in its turn takes exactly its claim, or the oldest
answer from its hold, and puts its service in progress; it changes no record, no slot and no setting, and removes the
mark of a selection or a wave examination (R94, R107; the model's choice, log 38). The room in the hold is an event for the
line's pick (R135, R136). What is read at the serving is kept for the operation: the Time Count for its stamps (R154), the
elapsed count of a READ (R35), the lines' states of a CONTACT (R151), the batch state (R104), the tests of R93, R107 and
R138. A beginning out of turn, a whole operation out of turn, and the end of an operation other than the one in progress
leave the state: while one is in progress no other reads or changes anything. -/
def Obligations.StoreServesOneOperation : Prop :=
  (∀ (part : Part) (c : Instr) (s : State), part ≠ .ends → storeOperation part c →
    s.store.inProgress ≠ none → exec c s = .next s)
  ∧ (∀ (want : Claim → Bool) (s u : State) (v : Service), opened .whole want s = some (v, u) → servedAt v s)
  ∧ (∀ (want : Claim → Bool) (s : State), (∀ w, s.turn want = some w → itsTurn s w ∧ want w.claim = true)
      ∧ (s.turn want = none → ∀ w, itsTurn s w → want w.claim = false))
  ∧ (∀ s : State, HoldOrderLaw s →
      (∀ l h, s.oldestAnswer = some (l, h) → (s.line l).receiveHold.head? = some h
        ∧ ∀ l', ∀ h' ∈ (s.line l').receiveHold, h.entered ≤ h'.entered)
      ∧ (s.oldestAnswer = none → ∀ l, (s.line l).receiveHold = []))
  ∧ (∀ (c : Instr) (s : State), (∃ w, itsTurn s w ∧ servesClaim .begins s c w.claim) →
      ∃ t w v, exec c s = .next t ∧ itsTurn s w ∧ servesClaim .begins s c w.claim
        ∧ t.store = { s.store with claims := s.store.claims.erase w, inProgress := some v }
        ∧ v.work = .claim w.claim ∧ servedAt v s ∧ testedAt v w.claim s ∧ marksRemoved w.claim s t
        ∧ t = { s with store := t.store, feeders := t.feeders, batch := t.batch })
  ∧ (∀ (c : Instr) (s : State) (l : LineNo) (h : Held), s.store.inProgress = none → s.oldestAnswer = some (l, h) →
      servesAnswer .begins c h →
      ∃ t v, exec c s = .next t ∧ t.store = { s.store with inProgress := some v }
        ∧ v.work = .answer h ∧ servedAt v s
        ∧ t.line l =
            { s.line l with
              receiveHold := (s.line l).receiveHold.tail, pickWanted := (t.line l).pickWanted,
              pickAgain := (t.line l).pickAgain }
        ∧ ((s.line l).state = .running → (s.line l).activity = .idle → (s.line l).receiveHold.tail.length < 2 →
            (t.line l).pickWanted = true)
        ∧ ((s.line l).state = .running → (s.line l).activity = .picking → (t.line l).pickAgain = true)
        ∧ (∀ x, x ≠ l → t.line x = s.line x) ∧ t = { s with store := t.store, lines := t.lines })
  ∧ (∀ (part : Part) (c : Instr) (s : State), part ≠ .ends → storeOperation part c →
      (∀ w, itsTurn s w → ¬ servesClaim part s c w.claim) →
      (∀ l h, s.store.inProgress = none → s.oldestAnswer = some (l, h) → ¬ servesAnswer part c h) →
      exec c s = .next s)
  ∧ ∀ (c : Instr) (s : State), storeOperation .ends c →
      (∀ v x, s.store.inProgress = some v → v.work = .claim x → ¬ servesClaim .ends s c x) →
      (∀ v h, s.store.inProgress = some v → v.work = .answer h → ¬ servesAnswer .ends c h) → exec c s = .next s

/-! ### SPI operations -/

/-- WRITE REQUEST, with its 32nd byte: the record joins the tail of a RUNNING queue of fewer than 16, and is discarded
otherwise; nothing else changes (R168). SDO shows the summary and then 00H (R167). -/
def Obligations.WriteRequestJoinsTheTail : Prop :=
  ∀ (part : SpiPart) (record : RawRequest) (extra : Nat) (s : State), spiEnds part 1 s = true →
    ∃ t, exec (.writeRequest part record extra) s = .next t
      ∧ t = { s with port := t.port, engine := { s.engine with queue := t.engine.queue } }
      ∧ WriteClocked part 32 extra s t
      ∧ (s.engine.stopped = false → s.engine.queue.length < 16 → t.engine.queue = s.engine.queue ++ [record])
      ∧ ((s.engine.stopped = true ∨ 16 ≤ s.engine.queue.length) → t.engine.queue = s.engine.queue)

/-- READ COMPLETION, with its 40th byte: the record fixed when its operation byte was decoded is clocked out after the
summary and the head leaves; of an empty queue the none record is clocked out and nothing leaves. The room that appears
is given to the READY entries: their completions are posted in the order in which they became READY, the lowest entry
first where they became READY together, as many as there is room for, and each posting frees its entry (R169, R177,
R178). -/
def Obligations.ReadCompletionTakesTheHead : Prop :=
  ∀ (extra : Nat) (s : State),
    let left (l : List Completion) : State := { s with engine := { s.engine with completions := l } }
    let posted (l : List Completion) (t : State) := ReadyPosted (left l) t
      ∧ t.engine.queue = s.engine.queue ∧ t.engine.stopped = s.engine.stopped
      ∧ t.engine.inService = s.engine.inService ∧ t.engine.previous = s.engine.previous
      ∧ t = { s with port := t.port, engine := t.engine, attention := t.attention, free := t.free }
    (∀ c l, spiEnds .whole 2 s = true → s.engine.completions = c :: l →
      ∃ t, exec (.readCompletion .whole extra) s = .next t
        ∧ t.port = ⟨none, summaryFor s :: c.bytes (!l.isEmpty) ++ List.replicate extra 0⟩ ∧ posted l t)
    ∧ (spiEnds .whole 2 s = true → s.engine.completions = [] →
      ∃ t, exec (.readCompletion .whole extra) s = .next t
        ∧ t = { s with port := ⟨none, summaryFor s :: List.replicate 40 0 ++ List.replicate extra 0⟩ })
    ∧ ∀ x : SpiTxn, s.port.txn = some x → x.op = some 2 → x.ignored = false →
      ∃ t, exec (.readCompletion .ends extra) s = .next t
        ∧ t.port = ⟨none, x.summary :: x.out ++ List.replicate extra 0⟩
        ∧ (x.head = false → t = { s with port := t.port })
        ∧ (x.head = true → posted s.engine.completions.tail t)

/-- READ STATUS clocks out the sixteen bytes of 11.2 after the summary, then 00H, and changes nothing (R170, R189). -/
def Obligations.ReadStatusChangesNothing : Prop :=
  (∀ (extra : Nat) (x : SpiTxn) (s : State), s.port.txn = some x → x.op = some 3 → x.ignored = false →
    exec (.readStatus .ends extra) s =
      .next { s with port := ⟨none, x.summary :: x.out ++ List.replicate extra 0⟩ })
  ∧ ∀ (extra : Nat) (s : State), spiEnds .whole 3 s = true →
    exec (.readStatus .whole extra) s =
      .next { s with
        port :=
          ⟨none,
            [summaryFor s, byteOf s.engine.queue.length, bitsByte [s.engine.stopped],
             byteOf s.engine.completions.length,
             byteOf (s.engine.parked.toList.countP (fun p => p.isSome)),
             byteOf (s.attention.pendingSet.toNat / 256), byteOf s.attention.pendingSet.toNat,
             byteOf (s.attention.enabledSet.toNat / 256), byteOf s.attention.enabledSet.toNat,
             boolByte s.attention.raised, byteOf (s.line 0).state.code, byteOf (s.line 1).state.code, 0]
            ++ be32 s.time.count.toNat ++ List.replicate extra 0⟩ }

/-- A transaction that begins and is not yet complete changes the port alone (R167). CSn's fall takes the port summary as
the part then stands; the decoding of the operation byte clocks that summary out, whatever has happened since, and
fixes the bytes of a read as the part stands at the decoding (R169, R170), and 00H for those of a write (R167). A transaction begun while RESETn is low finds
the part at its full-reset values and is ignored to its end: its operation byte and its end, and its early end, change
nothing but the port (R181; what SDO shows is a free value, log 9, log 41). -/
def Obligations.SpiBeginningChangesOnlyThePort : Prop :=
  ∀ (c d e f : Control) (record : RawRequest) (extra : Nat) (code : Byte) (s : State), knownControl code = false →
    c.part = .selects → d.part = .begins → e.part = .inReset → f.part = .ends →
    let commands (p : SpiPart) (x : Control) : List (Instr × Byte) :=
      [(.writeRequest p record extra, 1), (.readCompletion p extra, 2), (.readStatus p extra, 3), (.arm x, 4),
       (.ack x, 4), (.soft x, 4), (.restartQueue x, 4), (.flushQueue x, 4), (.fieldReset x, 4),
       (.unknownControlOperation code x, 4)]
    (∀ i op, (i, op) ∈ commands .selects c → s.port.txn = none →
      exec i s = .next { s with port := ⟨some ⟨none, s.portSummary, [], false, false⟩, []⟩ })
    ∧ (∀ i op, (i, op) ∈ commands .begins d → s.port.txn.all (fun t => t.op.isNone && !t.ignored) = true →
      ∃ t x, exec i s = .next t ∧ t = { s with port := ⟨some x, [summaryFor s]⟩ } ∧ x.op = some op
        ∧ x.summary = summaryFor s ∧ x.ignored = false
        ∧ (op = 2 → x.out = (match s.engine.completions with
              | [] => List.replicate 40 0
              | h :: l => h.bytes (!l.isEmpty))
            ∧ x.head = !s.engine.completions.isEmpty)
        ∧ (op = 3 → x.out = s.statusBytes ∧ x.head = false)
        ∧ (op = 1 → x.out = List.replicate 32 0 ∧ x.head = false)
        ∧ (op = 4 → x.out = List.replicate 4 0 ∧ x.head = false))
    ∧ (∀ i op, (i, op) ∈ commands .inReset e →
      ∃ x, exec i s =
          .next { State.reset with pending := s.pending, free := s.free, port := ⟨some x, []⟩ }
        ∧ x.op = none ∧ x.ignored = true)
    ∧ ∀ x : SpiTxn, s.port.txn = some x → x.ignored = true →
      (∀ i op, (i, op) ∈ commands .begins d → x.op = none →
        ∃ y, exec i s = .next { s with port := ⟨some y, []⟩ } ∧ y.op = some op ∧ y.ignored = true)
      ∧ (∀ i op, (i, op) ∈ commands .ends f → x.op = some op →
        ∃ t, exec i s = .next t ∧ t = { s with port := ⟨none, t.port.sdo⟩, free := s.free + 1 })
      ∧ ∀ op following, cutShort (x.op.or op) following = true →
        ∃ t, exec (.csnRiseEarly op following) s = .next t ∧ t = { s with port := ⟨none, t.port.sdo⟩, free := t.free }

/-- An undefined operation byte, a transaction cut short and an undefined control operation code have no effect beyond
the port, which shows the summary, then 00H or the bytes of the read as far as they went (R167 to R171). -/
def Obligations.UndefinedAndCutShortTransactionsHaveNoEffect : Prop :=
  (∀ (op : Byte) (following : Nat) (s : State), (spiLength op).isNone = true →
    s.port.txn.all (fun t => t.op.isNone && !t.ignored) = true →
    ∃ t, exec (.spiUnknownOperation op following) s = .next t ∧ t = { s with port := ⟨none, t.port.sdo⟩ }
      ∧ t.port.sdo = summaryFor s :: List.replicate following 0)
  ∧ (∀ (op : Option Byte) (following : Nat) (s : State),
      s.port.txn.all (fun t => t.op.isNone && !t.ignored) = true → cutShort op following = true →
      ∃ t, exec (.csnRiseEarly op following) s = .next t ∧ t = { s with port := ⟨none, t.port.sdo⟩ }
        ∧ (op = some 1 ∨ op = some 4 → t.port.sdo = summaryFor s :: List.replicate following 0)
        ∧ (op = some 2 → t.port.sdo = summaryFor s :: (match s.engine.completions with
              | [] => List.replicate following 0
              | h :: l => (h.bytes (!l.isEmpty)).take following))
        ∧ (op = some 3 → t.port.sdo = summaryFor s :: s.statusBytes.take following))
  ∧ (∀ (x : SpiTxn) (b : Byte) (op : Option Byte) (following : Nat) (s : State), s.port.txn = some x →
      x.op = some b → x.ignored = false → cutShort x.op following = true →
      ∃ t, exec (.csnRiseEarly op following) s = .next t
        ∧ t = { s with port := ⟨none, x.summary :: x.out.take following⟩ })
  ∧ ∀ (code : Byte) (c : Control) (s : State), knownControl code = false → spiEnds c.part 4 s = true →
      ∃ t, exec (.unknownControlOperation code c) s = .next t ∧ t = { s with port := ⟨none, t.port.sdo⟩ }
        ∧ WriteClocked c.part 4 c.extra s t

/-! ### Port controls and the Attention Unit -/

/-- ARM makes the state ARMED with ATTNn inactive and evaluates: raised again, ATTNn shows a fresh falling edge (R186);
ACK removes the named causes and nothing else (R187); SOFT raises SOFT, which in ARMED is evaluated and in RAISED only
joins the pending set (R187, R182, R184). That a raise with a throttle of 0 leaves a running timer is the model's choice
(log 16). SDO shows the summary and then 00H (R167). -/
def Obligations.ArmAckAndSoft : Prop :=
  ∀ (c : Control) (s : State), spiEnds c.part 4 s = true →
    (∃ t, exec (.arm c) s = .next t ∧ t = { s with port := ⟨none, t.port.sdo⟩, attention := t.attention }
      ∧ WriteClocked c.part 4 c.extra s t ∧ evaluatedTo { s.attention with raised := false } t.attention s.now)
    ∧ (∃ t, exec (.ack c) s = .next t
      ∧ t = { s with
          port := ⟨none, t.port.sdo⟩
          attention := { s.attention with pendingSet := s.attention.pendingSet &&& ~~~c.causes } }
      ∧ WriteClocked c.part 4 c.extra s t)
    ∧ (∃ t, exec (.soft c) s = .next t ∧ t = { s with port := ⟨none, t.port.sdo⟩, attention := t.attention }
      ∧ WriteClocked c.part 4 c.extra s t ∧ raisedTo 0x0020#16 s.attention t.attention s.now)

/-- RESTART QUEUE makes a STOPPED queue RUNNING with the recorded previous status OK and leaves a RUNNING one; FLUSH
QUEUE removes every record, sets the status to OK and leaves the queue state (R174). SDO shows the summary and then 00H
(R167). -/
def Obligations.RestartAndFlushQueue : Prop :=
  ∀ (c : Control) (s : State), spiEnds c.part 4 s = true →
    (∃ t, exec (.restartQueue c) s = .next t
      ∧ t = { s with
          port := ⟨none, t.port.sdo⟩
          engine :=
            if s.engine.stopped then { s.engine with stopped := false, previous := .ok } else s.engine }
      ∧ WriteClocked c.part 4 c.extra s t)
    ∧ ∃ t, exec (.flushQueue c) s = .next t
      ∧ t = { s with port := ⟨none, t.port.sdo⟩, engine := { s.engine with queue := [], previous := .ok } }
      ∧ WriteClocked c.part 4 c.extra s t

/-- The attention part `b` is `a` after the posting of an OK completion of a request: with QUIET nothing is raised, and
COMPLETION otherwise (R176). -/
def completionRaised (raw : RawRequest) (a b : Attention) (now : Nat) : Prop :=
  (reqQuiet raw = true → b = a) ∧ (reqQuiet raw = false → raisedTo 0x0001#16 a b now)

/-- CONFIGURE ATTENTION replaces the enabled set and stores the throttle, and in ARMED the state is evaluated (R183, R184).
The posting of its completion then raises COMPLETION, unless QUIET withholds it (R176, R182); the completion's fields show
the state between the two (the model's choice, log 15). THROTTLE EXPIRY stops the timer and in ARMED evaluates (R185). A
raise with a throttle of 0 leaves a running timer (the model's choice, log 16), and its falling edge is counted (log 42).
Each completes in every state in which its event comes about: the request taken as R172 gives, the due value reached. -/
def Obligations.ConfigureAttentionAndThrottle : Prop :=
  (∀ (q : InService) (s : State), directRequest .configureAttention q s →
    ∃ t a, exec .configureAttention s = .next t
      ∧ (let b : Attention :=
          { s.attention with
            enabledSet := BitVec.ofNat 16 (paramNat q.raw 0 2), throttle := (param q.raw 2).toNat }
         (s.attention.raised = true → a = b) ∧ (s.attention.raised = false → evaluatedTo b a s.now))
      ∧ Answered (taken s) t q .ok
          (be16 a.enabledSet.toNat
            ++ [byteOf a.throttle, boolByte a.raised, byteOf (remainingTenths a.timer s.now)])
      ∧ completionRaised q.raw a t.attention s.now
      ∧ TableStands s t ∧ UnitsStand s t ∧ t.rate = s.rate ∧ t.survey = s.survey ∧ t.time = s.time
      ∧ t.port = s.port ∧ t.pending = s.pending)
  ∧ ∀ (d : Nat) (s : State), s.attention.timer = some d → d ≤ s.now →
      ∃ t, exec .throttleExpiry s = .next t ∧ t = { s with attention := t.attention }
        ∧ (s.attention.raised = true → t.attention = { s.attention with timer := none })
        ∧ (s.attention.raised = false → evaluatedTo { s.attention with timer := none } t.attention s.now)

/-! ### The taking of a request -/

/-- The kinds served directly by a block, with their commands (R172). -/
def servedDirectly : List (ReqKind × Instr) :=
  [(.readSheet, .readSheet), (.readBatch, .readBatch), (.configureLine, .configureLine), (.lineStart, .lineStart),
   (.lineStop, .lineStop), (.readLine, .readLine), (.configureRate, .configureRate),
   (.configureSurvey, .configureSurvey), (.setTime, .setTime), (.configureAttention, .configureAttention)]

/-- A well-formed request at the head that is not flushed is taken (R172). One the Record Store serves goes into service
with its reservations and claims the store; one served directly is served as it is handed over: its taking is the
command of its kind, and it is in service at no moment between commands (log 40). -/
def Obligations.RequestIsTakenIntoService : Prop :=
  ∀ (raw : RawRequest) (rest : List RawRequest) (s : State), s.engine.queue = raw :: rest → mayBeTaken raw s →
    malformed raw = false → (reqChain raw = true → s.engine.previous = .ok) →
    ((reqKind raw).any ReqKind.atStore = true →
      ∃ t e, exec .requestTaking s = .next t
        ∧ t.engine = { s.engine with queue := rest, inService := some ⟨raw, e⟩ }
        ∧ (mayPark raw = false → e = none)
        ∧ (mayPark raw = true → ∃ n, e = some n ∧ s.park n = none ∧ ∀ m, m < n → s.park m ≠ none)
        ∧ t.store = { s.store with claims := s.store.claims ++ [⟨.request, s.moment + 1⟩] }
        ∧ t = { s with engine := t.engine, store := t.store, moment := s.moment + 1 })
    ∧ ∀ k c, (k, c) ∈ servedDirectly → reqKind raw = some k →
      exec .requestTaking s = exec c s ∧ ∃ t, exec c s = .next t ∧ t.engine.inService = none ∧ t.engine.queue = rest

/-- The kind of a request is known and names a record (R26, R179). -/
def namesARecord (raw : RawRequest) : Prop :=
  ∃ k ∈ [ReqKind.read, .amend, .setPhase, .cancelMove, .hold, .release, .clearFault, .clearNotices, .contact, .retire,
    .stageEntry], reqKind raw = some k

/-- A malformed request completes MALFORMED, the queue becomes STOPPED and QUEUE_STOPPED is raised (R173); a chained one
behind a status other than OK completes FLUSHED (R175). Either reaches no block, and its result area holds the handle
field as the request gave it where its kind is known and names a record, and 0 elsewhere (R179). -/
def Obligations.MalformedStopsAndChainFlushes : Prop :=
  ∀ (raw : RawRequest) (rest : List RawRequest) (s : State), s.engine.queue = raw :: rest → mayBeTaken raw s →
    let given (r : List Byte) : Prop := (namesARecord raw → r = reqHandleBytes raw) ∧ (¬ namesARecord raw → r = [])
    (malformed raw = true →
      ∃ t r, exec .requestTaking s = .next t ∧ given r ∧ t.engine.stopped = true ∧ t.engine.queue = rest
        ∧ t.engine.inService = none ∧ t.engine.previous = .malformed
        ∧ t.engine.completions = s.engine.completions ++ [ownCompletion ⟨raw, none⟩ .malformed r]
        ∧ Raised t .queueStopped ∧ Raised t .completion
        ∧ t.store = s.store ∧ UnitsStand s t ∧ OutsideStands s t)
    ∧ (malformed raw = false → reqChain raw = true → s.engine.previous ≠ .ok →
      ∃ t r, exec .requestTaking s = .next t ∧ given r ∧ t.engine.stopped = false ∧ t.engine.queue = rest
        ∧ t.engine.inService = none ∧ t.engine.previous = .flushed
        ∧ t.engine.completions = s.engine.completions ++ [ownCompletion ⟨raw, none⟩ .flushed r]
        ∧ Raised t .completion ∧ t.store = s.store ∧ UnitsStand s t ∧ OutsideStands s t)

/-! ### Record requests -/

/-- CREATE takes the lowest-index VACANT record into PROVISIONAL with the advanced generation, its parameters and a first
hunt due now; every other field has its vacant value, and the completion carries the new handle (R7, R31, R32). Now is the
elapsed count at the operation's end (the model's choice, log 13). -/
def Obligations.CreateTakesLowestVacant : Prop :=
  ∀ (part : Part) (q : InService) (v : Service) (i : RecIdx) (s : State), storeRequest part .create q v s →
    let key : Word32 := BitVec.ofNat 32 (paramNat q.raw 0 4)
    let f := feederOf (param q.raw 4)
    let address : Word16 := BitVec.ofNat 16 (paramNat q.raw 5 2)
    (s.feeder f).configured = true →
    (param q.raw 7 ≠ 1 → (phaseSetOf (param q.raw 8)) ≠ ⟨false, false, false⟩) →
    (∀ j, (s.record j).state ≠ .vacant → (s.record j).serviceKey ≠ key
      ∧ (s.lineOfRecord j = (s.feeder f).line → (s.record j).unitAddress ≠ address)) →
    (s.record i).state = .vacant → (∀ j, j < i → (s.record j).state ≠ .vacant) →
    ∃ t g, exec (.create part) s = .next t ∧ g = (if (s.record i).generation = 255 then 1 else (s.record i).generation + 1)
      ∧ Answered s t q .ok (be16 i.val ++ [g])
      ∧ t.record i =
          { Record.vacant g with
            state := .provisional
            serviceKey := key
            feeder := f
            unitAddress := address
            kind := if param q.raw 7 = 1 then .three else .single
            allowed := if param q.raw 7 = 1 then ⟨false, false, false⟩ else phaseSetOf (param q.raw 8)
            tag := param q.raw 9
            deadlineInterval := inRange 10 65535 (paramNat q.raw 10 2)
            dailyBudget := inRange 1 15 (param q.raw 12).toNat
            autoRestore := onOff (param q.raw 13)
            huntDue := some s.now }
      ∧ OnlyRecord i s t ∧ t.feeders = s.feeders ∧ PickTold s t (s.feeder f).line

/-- The refusals of CREATE (R31) and of SET PHASE (R38), each after those named before it; a refused request changes
nothing (R26). -/
def Obligations.CreateAndSetPhaseAreRefusedInOrder : Prop :=
  (∀ (part : Part) (q : InService) (v : Service) (s : State), storeRequest part .create q v s →
    let key : Word32 := BitVec.ofNat 32 (paramNat q.raw 0 4)
    let f := feederOf (param q.raw 4)
    let address : Word16 := BitVec.ofNat 16 (paramNat q.raw 5 2)
    let noSet := param q.raw 7 = 0 ∧ phaseSetOf (param q.raw 8) = ⟨false, false, false⟩
    let keyHeld := ∃ j, (s.record j).state ≠ .vacant ∧ (s.record j).serviceKey = key
    let addressHeld := ∃ j, (s.record j).state ≠ .vacant ∧ (s.record j).unitAddress = address
      ∧ s.lineOfRecord j = (s.feeder f).line
    ((s.feeder f).configured = false → AnswersAlone (.create part) q .feederUnconfigured [] s)
    ∧ ((s.feeder f).configured = true →
        (noSet → AnswersAlone (.create part) q .phaseNotAllowed [] s)
        ∧ (¬ noSet → keyHeld → AnswersAlone (.create part) q .duplicateKey [] s)
        ∧ (¬ noSet → ¬ keyHeld → addressHeld → AnswersAlone (.create part) q .duplicateAddress [] s)
        ∧ (¬ noSet → ¬ keyHeld → ¬ addressHeld → (∀ j, (s.record j).state ≠ .vacant) →
            AnswersAlone (.create part) q .tableFull [] s)))
  ∧ ∀ (part : Part) (q : InService) (v : Service) (i : RecIdx) (s : State), recordRequest part .setPhase q v i s →
    let r := s.record i
    let refused (st : Status) := AnswersAlone (.setPhase part) q st (reqHandleBytes q.raw) s
    let allowed := ∃ p, phaseOf (param q.raw 3).toNat = some p ∧ r.allowed.get p = true
    (r.state ≠ .active → refused .notActive)
    ∧ (r.state = .active → r.kind = .three → refused .notMovable)
    ∧ (r.state = .active → r.kind = .single →
        (¬ allowed → refused .phaseNotAllowed)
        ∧ (allowed → r.fault ≠ none → refused .faulted)
        ∧ (allowed → r.fault = none → r.dailyBudget ≤ r.dailyUsed → refused .budgetSpent)
        ∧ (allowed → r.fault = none → r.dailyUsed < r.dailyBudget → r.hold ≠ none → reqWait q.raw = true →
            refused .held))

/-- The conditions of a FIND set, bit by bit (R33, 11.1). -/
def holdsConditions (set : Nat) (r : Record) : Prop :=
  (set.testBit 0 = true → r.stale = true) ∧ (set.testBit 1 = true → r.fault ≠ none)
    ∧ (set.testBit 2 = true → r.hold ≠ none) ∧ (set.testBit 3 = true → r.move ≠ none)
    ∧ (set.testBit 4 = true → r.state = .provisional) ∧ (set.testBit 5 = true → r.notices.restarted = true)
    ∧ (set.testBit 6 = true → r.notices.drifted = true) ∧ (set.testBit 7 = true → r.notices.noContact = true)
    ∧ (set.testBit 8 = true → r.notices.moveFailed = true)

/-- Byte `k` of an image. -/
def imageByte (l : List Byte) (k : Nat) : Byte := l.getD k 0

/-- The number in `n` bytes of an image from byte `k` on, high byte first. -/
def imageNat (l : List Byte) (k n : Nat) : Nat := ofBytes ((l.drop k).take n)

/-- The code of an optional field, 0 where it is absent (R189). -/
def codeOr {α : Type} (o : Option α) (code : α → Nat) : Nat :=
  match o with
  | some x => code x
  | none => 0

/-- Whole seconds to a due value, rounded up, and 0 when it is absent or has passed (R189). -/
def secondsTo (due : Option Nat) (now : Nat) : Nat := codeOr due (fun d => (d - now + 9) / 10)

/-- View 0 of the record image, byte by byte (11.4). -/
def View0Layout (r : Record) (i : RecIdx) (b : List Byte) : Prop :=
  b.length = 32 ∧ imageNat b 0 2 = i.val ∧ imageByte b 2 = r.generation ∧ imageByte b 3 = byteOf r.state.code
    ∧ imageByte b 4 =
        bitsByte [decide (r.kind = .three), r.stale, r.autoRestore, r.hold.isSome, r.target.isSome, r.move.isSome,
          r.rateClass.isSome, false]
    ∧ imageByte b 5 = byteOf r.feeder.val ∧ imageNat b 6 2 = r.unitAddress.toNat ∧ imageNat b 8 4 = r.serviceKey.toNat
    ∧ imageByte b 12 = bitsByte [r.allowed.a, r.allowed.b, r.allowed.c]
    ∧ imageByte b 13 = byteOf (codeOr r.phase Phase.code)
    ∧ imageNat b 14 2 = (BitVec.ofInt 16 r.current.a).toNat ∧ imageNat b 16 2 = (BitVec.ofInt 16 r.current.b).toNat
    ∧ imageNat b 18 2 = (BitVec.ofInt 16 r.current.c).toNat
    ∧ imageByte b 20 = byteOf (codeOr r.target (fun t => t.phase.code))
    ∧ imageByte b 21 = byteOf (codeOr r.target (fun t => t.priority))
    ∧ imageByte b 22 = byteOf (codeOr r.target (fun t => t.origin.code))
    ∧ imageByte b 23 = byteOf (codeOr r.move (fun k => k.val)) ∧ imageByte b 24 = r.hold.getD 0
    ∧ imageByte b 25 =
        bitsByte [r.notices.restarted, r.notices.drifted, r.notices.noContact, r.notices.moveFailed]
    ∧ imageByte b 26 = byteOf (codeOr r.rateClass (fun c => c.val)) ∧ imageByte b 27 = r.tag
    ∧ imageByte b 28 = byteOf r.dailyUsed ∧ imageByte b 29 = byteOf r.dailyBudget
    ∧ imageNat b 30 2 = r.deadlineInterval % 65536

/-- View 1 of the record image on an elapsed count, byte by byte (11.4). -/
def View1Layout (r : Record) (i : RecIdx) (now : Nat) (b : List Byte) : Prop :=
  b.length = 32 ∧ imageNat b 0 2 = i.val ∧ imageByte b 2 = r.generation ∧ imageByte b 3 = byteOf r.state.code
    ∧ imageByte b 4 = bitsByte [r.lastReport.isSome, r.fault.isSome, r.fault.any (fun f => f.second)]
    ∧ imageNat b 5 4 = codeOr r.lastReport (fun n => n.toNat) ∧ imageNat b 9 2 = r.opCount.toNat
    ∧ imageByte b 11 = byteOf (codeOr r.fault (fun f => f.code.toNat))
    ∧ imageNat b 12 4 = codeOr r.fault (fun f => f.time.toNat)
    ∧ imageByte b 16 = byteOf (codeOr r.lastMove (fun m => m.result.code))
    ∧ imageByte b 17 = byteOf (codeOr r.lastMove (fun m => m.origin.code))
    ∧ imageNat b 18 4 = codeOr r.lastMove (fun m => m.time.toNat)
    ∧ imageNat b 22 2 = secondsTo r.deadlineDue now % 65536 ∧ imageNat b 24 2 = secondsTo r.coolDown now % 65536
    ∧ imageNat b 26 2 = secondsTo r.huntDue now % 65536 ∧ imageByte b 28 = byteOf r.huntFailures
    ∧ imageByte b 29 = byteOf (codeOr r.lastHunt (fun h => h.code)) ∧ imageNat b 30 2 = 0

/-- The tally image, byte by byte (11.4). -/
def TallyLayout (x : Feeder) (inFlight now : Nat) (b : List Byte) : Prop :=
  b.length = 32
    ∧ imageByte b 0 =
        bitsByte [x.configured, decide (x.line = 1), x.enable, x.selectionPending, x.lastHandle.isSome]
    ∧ imageByte b 1 = byteOf (x.inFlightLimit + 16 * inFlight)
    ∧ imageByte b 2 = byteOf (x.priority + 16 * x.state.code)
    ∧ imageByte b 3 = byteOf (x.heaviest.code + 16 * x.lightest.code)
    ∧ imageNat b 4 2 = x.coolDown % 65536 ∧ imageNat b 6 2 = x.threshold % 65536
    ∧ imageNat b 8 2 = x.persistence % 65536
    ∧ imageNat b 10 3 = (BitVec.ofInt 24 x.sum.a).toNat ∧ imageNat b 13 3 = (BitVec.ofInt 24 x.sum.b).toNat
    ∧ imageNat b 16 3 = (BitVec.ofInt 24 x.sum.c).toNat
    ∧ imageNat b 19 5 =
        x.count.a % 1024 * 2 ^ 30 + x.count.b % 1024 * 2 ^ 20 + x.count.c % 1024 * 2 ^ 10 + x.excluded % 1024
    ∧ imageNat b 24 3 = x.spread.toNat % 2 ^ 24 ∧ imageNat b 27 2 = secondsTo x.timer now % 65536
    ∧ imageNat b 29 2 = codeOr x.lastHandle (fun h => h.index.val)
    ∧ imageByte b 31 = byteOf (codeOr x.lastHandle (fun h => h.generation.toNat))

/-- The result code of a staging-list entry in 11.4; 0 for a result R103 does not give. -/
def resultCode : EntryResult → Nat
  | .pending => 1 | .inMove => 2 | .done => 3 | .already => 4 | .flushed => 5 | .aborted => 6
  | .failed .declined => 8 | .failed .noAnswer => 9 | .failed .restoredBack => 10 | .failed .unsupplied => 11
  | .failed .lost => 12 | .failed .aborted => 13 | .failed .budgetSpent => 14
  | .failed .done => 3 | .failed .already => 4
  | .refused .staleHandle => 16 | .refused .notActive => 17 | .refused .notMovable => 18 | .refused .held => 19
  | .refused .faulted => 20 | .refused .busy => 21 | .refused .phaseNotAllowed => 22 | .refused .budgetSpent => 23
  | .refused _ => 0

/-- The batch status image from a first entry index on: the 112-bit field of bytes 0 to 13, each part with its width and
its lowest bit, then six entries of three bytes (11.4; the order of the parts is the model's choice, log 18). -/
def BatchLayout (x : Batch) (now first : Nat) (b : List Byte) : Prop :=
  let field := imageNat b 0 14
  let part (low width : Nat) : Nat := field / 2 ^ low % 2 ^ width
  let given (n : Nat) : Nat := if x.state = .empty ∨ x.state = .staging then 0 else n
  let wave (o : Option Nat) : Nat := if x.waveNumber = 0 then 0 else o.getD 0
  let count (test : EntryResult → Bool) : Nat := x.entries.countP (fun e => test e.result)
  b.length = 32
    ∧ part 109 3 = x.state.code ∧ part 108 1 = (if x.stalled then 1 else 0)
    ∧ part 107 1 = given (if x.stopOnFailure then 1 else 0) ∧ part 104 3 = given x.priority % 8
    ∧ part 97 7 = x.waveNumber % 128 ∧ part 91 6 = wave x.waveFirst % 64 ∧ part 85 6 = wave x.waveLast % 64
    ∧ part 81 4 = given (x.waveSize.getD 1 - 1) % 16 ∧ part 71 10 = given (x.settle.getD 0) % 1024
    ∧ part 61 10 = secondsTo x.settleDue now % 1024 ∧ part 54 7 = x.entries.length % 128
    ∧ part 47 7 = count (fun r => decide (r = .pending)) % 128 ∧ part 42 5 = count (fun r => decide (r = .inMove)) % 32
    ∧ part 35 7 = count (fun r => decide (r = .done)) % 128 ∧ part 28 7 = count (fun r => decide (r = .already)) % 128
    ∧ part 21 7 = count (fun r => match r with | .failed _ => true | _ => false) % 128
    ∧ part 14 7 = count (fun r => match r with | .refused _ => true | _ => false) % 128
    ∧ part 7 7 = count (fun r => decide (r = .flushed)) % 128 ∧ part 0 7 = count (fun r => decide (r = .aborted)) % 128
    ∧ ∀ k, k < 6 →
        imageNat b (14 + 3 * k) 2 =
            codeOr x.entries[first + k]? (fun e => e.handle.index.val * 128 + e.toPhase.code * 32 + resultCode e.result)
          ∧ imageByte b (16 + 3 * k) = byteOf (codeOr x.entries[first + k]? (fun e => e.handle.generation.toNat))

/-- The line image, byte by byte (11.4). -/
def LineLayout (x : Line) (sequence : Byte) (b : List Byte) : Prop :=
  imageByte b 0 = byteOf x.state.code ∧ imageByte b 1 = byteOf x.activity.code
    ∧ imageByte b 2 = byteOf (codeOr x.out (fun t => t.kind.function.toNat))
    ∧ imageNat b 3 2 = codeOr x.out (fun t => t.index.val)
    ∧ imageByte b 5 = byteOf x.attemptsLeft ∧ imageByte b 6 = byteOf x.silence
    ∧ imageNat b 7 2 = (match x.round with | some n => n % 65536 | none => 65535)
    ∧ imageByte b 9 = sequence ∧ imageByte b 10 = byteOf x.receiveHold.length ∧ imageByte b 11 = byteOf x.retryLimit
    ∧ imageByte b 12 = byteOf x.turnaround ∧ imageByte b 13 = byteOf x.confirmDelay
    ∧ imageByte b 14 = byteOf x.silenceLimit ∧ imageNat b 15 2 = x.huntInterval % 65536 ∧ b.length = 17

/-- The reads change no record and nothing else but the queue they are answered in: FIND answers the lowest match and
the number of matches, or NOT_FOUND (R33, R34); READ one view of the record image, its times remaining from the moment
the READ was served (R35); READ SHEET, READ BATCH and READ LINE the images of 11.4 (R91, R116, R124). The images hold
what the tables of 11.4 give, byte by byte (R190, R189); that the 112-bit field of the batch image is read column by
column from the top bit down is the model's choice (log 18). -/
def Obligations.ReadsAnswerAndChangeNothing : Prop :=
  (∀ (raw : RawRequest) (r : Record) (i : RecIdx), matchesFind raw r i = true ↔
    r.state ≠ .vacant
      ∧ (∀ k, k < 32 → (paramNat raw 4 4).testBit k = true →
          r.serviceKey.toNat.testBit k = (paramNat raw 0 4).testBit k)
      ∧ ((param raw 8).toNat = 255 ∨ r.feeder.val = (param raw 8).toNat)
      ∧ (∀ k, (param raw 10).getLsbD k = true → r.tag.getLsbD k = (param raw 9).getLsbD k)
      ∧ holdsConditions (paramNat raw 11 2) r ∧ paramNat raw 13 2 ≤ i.val)
  ∧ (∀ (r : Record) (i : RecIdx) (now : Nat), View0Layout r i (r.view0 i) ∧ View1Layout r i now (r.view1 i now))
  ∧ (∀ (s : State) (f : FeederNo) (l : LineNo) (first : Nat),
      TallyLayout (s.feeder f) s.sched.inFlight[f] s.now (s.tallyImage f) ∧ BatchLayout s.batch s.now first (s.batchImage first)
        ∧ LineLayout (s.line l) s.sched.lineSequence[l] (s.lineImage l))
  ∧ (∀ (part : Part) (q : InService) (v : Service) (s : State), storeRequest part .find q v s →
      ((∀ i, matchesFind q.raw (s.record i) i = false) → AnswersAlone (.find part) q .notFound [] s)
      ∧ ∀ i, matchesFind q.raw (s.record i) i = true → (∀ j, j < i → matchesFind q.raw (s.record j) j = false) →
          AnswersAlone (.find part) q .ok
            (be16 i.val ++ [(s.record i).generation, byteOf (s.record i).state.code]
              ++ be16 ((List.finRange 512).countP (fun j => matchesFind q.raw (s.record j) j))) s)
  ∧ (∀ (part : Part) (q : InService) (v : Service) (i : RecIdx) (s : State), recordRequest part .read q v i s →
      AnswersAlone (.read part) q .ok
        (if (param q.raw 3).getLsbD 0 then (s.record i).view1 i v.elapsed else (s.record i).view0 i) s)
  ∧ (∀ (q : InService) (s : State), directRequest .readSheet q s →
      TakingAnswersAlone .readSheet q .ok (s.tallyImage (feederOf (param q.raw 0))) s)
  ∧ (∀ (q : InService) (s : State), directRequest .readBatch q s →
      TakingAnswersAlone .readBatch q .ok (s.batchImage (param q.raw 0).toNat) s)
  ∧ ∀ (q : InService) (s : State), directRequest .readLine q s →
      TakingAnswersAlone .readLine q .ok (s.lineImage (lineNoOf (param q.raw 0))) s

/-- A handle that fails a test of R2, its generation 0 or another than the record's or the record VACANT, is refused
STALE_HANDLE by every record request, and no record changes. -/
def Obligations.StaleHandleIsRefused : Prop :=
  ∀ (part : Part) (q : InService) (v : Service) (k : ReqKind) (c : Instr) (s : State),
    (k, c) ∈ [(.read, .read part), (.amend, .amend part), (.setPhase, .setPhase part),
      (.cancelMove, .cancelMove part), (.hold, .hold part), (.release, .release part),
      (.clearFault, .clearFault part), (.clearNotices, .clearNotices part), (.contact, .contact part),
      (.retire, .retire part)] →
    storeRequest part k q v s →
    ((reqHandle q.raw).generation = 0 ∨ (reqHandle q.raw).generation ≠ (s.record (reqHandle q.raw).index).generation
      ∨ (s.record (reqHandle q.raw).index).state = .vacant) →
    AnswersAlone c q .staleHandle (reqHandleBytes q.raw) s

/-- AMEND stores the selected settings (R36, R37) after the tests of a selected allowed set (R36); an interval changed
on a record in service that is not stale moves its running deadline, and the record is stale at once when the new
value has passed (R17), which is tested at the operation's end (the model's choice, log 43). -/
def Obligations.AmendStoresSelectedSettings : Prop :=
  ∀ (part : Part) (q : InService) (v : Service) (i : RecIdx) (s : State), recordRequest part .amend q v i s →
    let r := s.record i
    let sel (k : Nat) := (param q.raw 3).getLsbD k = true
    let set := phaseSetOf (param q.raw 4)
    let n := inRange 10 65535 (paramNat q.raw 6 2)
    let conflict := set = ⟨false, false, false⟩
      ∨ ((r.state = .active ∨ r.state = .retiring) ∧ ∃ p, r.phase = some p ∧ set.get p = false)
      ∨ (∃ tg, r.target = some tg ∧ set.get tg.phase = false)
      ∨ ∃ k m, r.move = some k ∧ s.slot k = some m ∧ m.state ≠ .queued ∧ set.get m.toPhase = false
    (sel 0 → r.kind = .three → AnswersAlone (.amend part) q .notMovable (reqHandleBytes q.raw) s)
    ∧ (sel 0 → r.kind = .single → conflict →
        AnswersAlone (.amend part) q .phaseNotAllowed (reqHandleBytes q.raw) s)
    ∧ ((sel 0 → r.kind = .single ∧ ¬ conflict) →
        ∃ t, exec (.amend part) s = .next t ∧ Answered s t q .ok (reqHandleBytes q.raw ++ [param q.raw 3])
          ∧ t.record i =
              { r with
                allowed := if (param q.raw 3).getLsbD 0 then set else r.allowed
                tag := if (param q.raw 3).getLsbD 1 then param q.raw 5 else r.tag
                deadlineInterval := if (param q.raw 3).getLsbD 2 then n else r.deadlineInterval
                dailyBudget := if (param q.raw 3).getLsbD 3 then inRange 1 15 (param q.raw 8).toNat else r.dailyBudget
                autoRestore := if (param q.raw 3).getLsbD 4 then onOff (param q.raw 9) else r.autoRestore
                deadlineDue := (t.record i).deadlineDue
                stale := (t.record i).stale }
          ∧ OnlyRecord i s t
          ∧ (∀ d, sel 2 → (r.state = .active ∨ r.state = .retiring) → r.stale = false → n ≠ r.deadlineInterval →
              r.deadlineDue = some d →
              (s.now < d + 10 * n - 10 * r.deadlineInterval →
                (t.record i).deadlineDue = some (d + 10 * n - 10 * r.deadlineInterval) ∧ (t.record i).stale = false)
              ∧ (d + 10 * n - 10 * r.deadlineInterval ≤ s.now →
                (t.record i).deadlineDue = none ∧ (t.record i).stale = true ∧ Raised t .stale))
          ∧ ((¬ sel 2 ∨ (r.state ≠ .active ∧ r.state ≠ .retiring) ∨ r.stale = true ∨ n = r.deadlineInterval) →
              (t.record i).deadlineDue = r.deadlineDue ∧ (t.record i).stale = r.stale))

/-- An accepted SET PHASE on a record with a target completes a parked WAIT for it SUPERSEDED (R41). -/
def WaitSuperseded (q : InService) (i : RecIdx) (s t : State) : Prop :=
  (s.record i).target ≠ none → entryFree q s → ParkedFor s t i 0x05 .superseded (fun _ => [])

/-- The removal of a record's target completes a parked WAIT for it ABORTED (R41). -/
def WaitAborted (i : RecIdx) (s t : State) : Prop :=
  (s.record i).target ≠ none → ParkedFor s t i 0x05 .aborted (fun _ => [])

/-- A SET PHASE is answered at once with its result and slot, or parks with them when it carries WAIT (R39 to R41). -/
def answersOrWaits (s t : State) (q : InService) (result slot : Byte) : Prop :=
  (reqWait q.raw = false → Answered s t q .ok (reqHandleBytes q.raw ++ [result, slot]))
    ∧ (reqWait q.raw = true → ParkedIn s t q .targetRemoval result slot)

/-- The conditions under which SET PHASE is accepted for a phase (R38). -/
def setPhaseAccepted (q : InService) (p : Phase) (r : Record) : Prop :=
  r.state = .active ∧ r.kind = .single ∧ phaseOf (param q.raw 3).toNat = some p ∧ r.allowed.get p = true
    ∧ r.fault = none ∧ r.dailyUsed < r.dailyBudget ∧ (r.hold = none ∨ reqWait q.raw = false)

/-- The target an accepted SET PHASE sets: a priority above 6 is taken as 6 (R38). -/
def hostTarget (q : InService) (p : Phase) : Target := ⟨p, min (param q.raw 4).toNat 6, .host⟩

/-- SET PHASE on a record with no move and no hold, to another phase than its own: the target is set, and a move is
enqueued in the lowest free slot with a new entry order; result QUEUED (R39, R52, R57). A parked WAIT of the target
replaced completes SUPERSEDED (R41). Resolve mode and attempts left before the admission are the model's choice (log
47). -/
def Obligations.SetPhaseEnqueuesAMove : Prop :=
  ∀ (part : Part) (q : InService) (v : Service) (i : RecIdx) (p : Phase) (k : SlotNo) (s : State),
    recordRequest part .setPhase q v i s → setPhaseAccepted q p (s.record i) → (s.record i).phase ≠ some p →
    (s.record i).hold = none → (s.record i).move = none → LowestFree s k → s.listed i = false →
    ∃ t, exec (.setPhase part) s = .next t ∧ answersOrWaits s t q 1 (byteOf k.val) ∧ WaitSuperseded q i s t
      ∧ t.record i = { s.record i with target := some (hostTarget q p), move := some k }
      ∧ t.slot k = some (enqueued s i p (min (param q.raw 4).toNat 6) .host none)
      ∧ t.sched.entryCount = s.sched.entryCount + 1 ∧ t.sched.waitingList = s.sched.waitingList
      ∧ OnlyRecordAndSlot i k s t ∧ t.feeders = s.feeders ∧ t.batch = s.batch ∧ LinesStandButMarks s t
      ∧ PickTold s t (s.lineOfRecord i)

/-- The other rows of R39: a move in flight (FOLLOWS); the phase already the record's (NONE, the target removed and a
QUEUED move ended ABORTED); a QUEUED move re-placed in its slot (R59); a held record (HELD); no free slot, or a record
listed already (WAITING: the record has one entry in the waiting list, in its place with the priority told, and the other
entries stand, R57). In each a parked WAIT of the target replaced or removed completes SUPERSEDED (R41); the move ended is
told to the block that enqueued it (R76). -/
def Obligations.SetPhaseOtherRows : Prop :=
  ∀ (part : Part) (q : InService) (v : Service) (i : RecIdx) (p : Phase) (s : State),
    recordRequest part .setPhase q v i s → setPhaseAccepted q p (s.record i) →
    let r := s.record i
    (∀ k m, FlyingAt s i k m →
      ∃ t, exec (.setPhase part) s = .next t ∧ answersOrWaits s t q 2 0 ∧ WaitSuperseded q i s t
        ∧ t.record i = { r with target := some (hostTarget q p) } ∧ OnlyRecord i s t ∧ t.lines = s.lines)
    ∧ (r.phase = some p → r.move = none →
      ∃ t, exec (.setPhase part) s = .next t ∧ Answered s t q .ok (reqHandleBytes q.raw ++ [0, 0])
        ∧ WaitSuperseded q i s t
        ∧ t.record i = { r with target := none } ∧ OnlyRecord i s t ∧ t.lines = s.lines)
    ∧ (∀ k m, r.phase = some p → QueuedAt s i k m →
      ∃ t, exec (.setPhase part) s = .next t ∧ Answered s t q .ok (reqHandleBytes q.raw ++ [0, 0])
        ∧ WaitSuperseded q i s t
        ∧ t.record i = { r with target := none, move := none, lastMove := some ⟨.aborted, m.origin, v.stamp⟩ }
        ∧ t.slot k = none ∧ EndTold s t m .aborted ∧ OnlyRecordAndSlot i k s t)
    ∧ (∀ k m, r.phase ≠ some p → QueuedAt s i k m →
      ∃ t, exec (.setPhase part) s = .next t ∧ answersOrWaits s t q 1 (byteOf k.val) ∧ WaitSuperseded q i s t
        ∧ t.record i = { r with target := some (hostTarget q p) }
        ∧ (m.toPhase = p → m.priority = min (param q.raw 4).toNat 6 → t.slot k = some { m with origin := .host })
        ∧ (¬ (m.toPhase = p ∧ m.priority = min (param q.raw 4).toNat 6) →
            t.slot k = some
              { m with
                toPhase := p, priority := min (param q.raw 4).toNat 6, origin := .host,
                entryOrder := s.sched.entryCount + 1 })
        ∧ OnlyRecordAndSlot i k s t ∧ t.batch = s.batch ∧ LinesStandButMarks s t)
    ∧ (r.phase ≠ some p → r.move = none → r.hold ≠ none →
      ∃ t, exec (.setPhase part) s = .next t ∧ answersOrWaits s t q 3 0 ∧ WaitSuperseded q i s t
        ∧ t.record i = { r with target := some (hostTarget q p) } ∧ OnlyRecord i s t ∧ t.lines = s.lines)
    ∧ (r.phase ≠ some p → r.move = none → r.hold = none → ((∀ k, s.slot k ≠ none) ∨ s.listed i = true) →
      ∃ t, exec (.setPhase part) s = .next t ∧ answersOrWaits s t q 4 0 ∧ WaitSuperseded q i s t
        ∧ t.record i = { r with target := some (hostTarget q p) }
        ∧ Enlisted i (min (param q.raw 4).toNat 6) s t
        ∧ t.sched = { s.sched with waitingList := t.sched.waitingList }
        ∧ OtherRecordsStand i s t ∧ t.lines = s.lines ∧ t.batch = s.batch ∧ OutsideStands s t)

/-- CANCEL MOVE (R43): a move in flight is TOO_LATE but its target goes; a QUEUED move ends ABORTED with its target; a
target alone is removed; otherwise nothing. HOLD stores its reason (R45, R21), and a QUEUED move ends ABORTED with the
target kept; a move in flight runs on. A target removed completes a parked WAIT ABORTED, and under a hold it stays
parked (R41); a move ended is told to the block that enqueued it (R76). -/
def Obligations.CancelMoveAndHold : Prop :=
  (∀ (part : Part) (q : InService) (v : Service) (i : RecIdx) (s : State), recordRequest part .cancelMove q v i s →
    let r := s.record i
    (r.state = .retiring → AnswersAlone (.cancelMove part) q .tooLate (reqHandleBytes q.raw) s)
    ∧ (r.state ≠ .retiring →
        (∀ k m, FlyingAt s i k m →
          ∃ t, exec (.cancelMove part) s = .next t ∧ Answered s t q .tooLate (reqHandleBytes q.raw)
            ∧ WaitAborted i s t
            ∧ t.record i = { r with target := none } ∧ OnlyRecord i s t ∧ t.lines = s.lines)
        ∧ (∀ k m, QueuedAt s i k m →
          ∃ t, exec (.cancelMove part) s = .next t ∧ Answered s t q .ok (reqHandleBytes q.raw ++ [6])
            ∧ t.record i = { r with target := none, move := none, lastMove := some ⟨.aborted, m.origin, v.stamp⟩ }
            ∧ t.slot k = none ∧ WaitAborted i s t ∧ EndTold s t m .aborted ∧ OnlyRecordAndSlot i k s t)
        ∧ (r.move = none → r.target ≠ none →
          ∃ t, exec (.cancelMove part) s = .next t ∧ Answered s t q .ok (reqHandleBytes q.raw ++ [5])
            ∧ WaitAborted i s t
            ∧ t.record i = { r with target := none } ∧ OnlyRecord i s t ∧ t.lines = s.lines)
        ∧ (r.move = none → r.target = none →
          AnswersAlone (.cancelMove part) q .ok (reqHandleBytes q.raw ++ [0]) s)))
  ∧ ∀ (part : Part) (q : InService) (v : Service) (i : RecIdx) (s : State), recordRequest part .hold q v i s →
    let r := s.record i
    (∀ k m, FlyingAt s i k m →
      ∃ t, exec (.hold part) s = .next t ∧ Answered s t q .ok (reqHandleBytes q.raw ++ [7])
        ∧ t.record i = { r with hold := some (param q.raw 3) } ∧ OnlyRecord i s t ∧ t.lines = s.lines)
    ∧ (∀ k m, r.state = .active → QueuedAt s i k m →
      ∃ t, exec (.hold part) s = .next t ∧ Answered s t q .ok (reqHandleBytes q.raw ++ [6])
        ∧ t.record i =
            { r with hold := some (param q.raw 3), move := none, lastMove := some ⟨.aborted, m.origin, v.stamp⟩ }
        ∧ t.slot k = none ∧ EndTold s t m .aborted
        ∧ (∀ n p, Awaits s n p 0x05 (some ⟨i, r.generation⟩) → t.park n = some p) ∧ OnlyRecordAndSlot i k s t)
    ∧ (r.move = none →
      ∃ t, exec (.hold part) s = .next t ∧ Answered s t q .ok (reqHandleBytes q.raw ++ [0])
        ∧ t.record i = { r with hold := some (param q.raw 3) } ∧ OnlyRecord i s t ∧ t.lines = s.lines)

/-- What RELEASE and CLEAR FAULT do once their field is removed, leaving the record `r`: a waiting record is told to the
Move Scheduler, which gives it the lowest free slot or lists it, with one entry in its place (R14, R46, R47, R57). -/
def afterFieldRemoved (c : Instr) (q : InService) (i : RecIdx) (r : Record) (s : State) : Prop :=
  ((∀ tg, ¬ waitsWith r tg) →
    ∃ t, exec c s = .next t ∧ Answered s t q .ok (reqHandleBytes q.raw ++ [0, 0]) ∧ t.record i = r
      ∧ OnlyRecord i s t ∧ t.lines = s.lines)
  ∧ (∀ tg k, waitsWith r tg → LowestFree s k → s.listed i = false →
    ∃ t, exec c s = .next t ∧ Answered s t q .ok (reqHandleBytes q.raw ++ [1, byteOf k.val])
      ∧ t.record i = { r with move := some k }
      ∧ t.slot k = some (enqueued s i tg.phase tg.priority tg.origin (s.enqueuer i tg.origin))
      ∧ t.sched.entryCount = s.sched.entryCount + 1 ∧ t.sched.waitingList = s.sched.waitingList
      ∧ OnlyRecordAndSlot i k s t ∧ t.batch = s.batch ∧ LinesStandButMarks s t ∧ PickTold s t (s.lineOfRecord i))
  ∧ ∀ tg, waitsWith r tg → ((∀ k, s.slot k ≠ none) ∨ s.listed i = true) →
    ∃ t, exec c s = .next t ∧ Answered s t q .ok (reqHandleBytes q.raw ++ [4, 0]) ∧ t.record i = r
      ∧ Enlisted i tg.priority s t
      ∧ t.sched = { s.sched with waitingList := t.sched.waitingList }
      ∧ OtherRecordsStand i s t ∧ t.lines = s.lines ∧ t.batch = s.batch ∧ OutsideStands s t

/-- RELEASE removes the hold and CLEAR FAULT the fault field whole; with no such field they change nothing (R46, R47,
R20, R21). A record then waiting is given a move or has its one entry in the waiting list (R57); resolve mode and attempts
left of such a move are the model's choice (log 47). -/
def Obligations.ReleaseAndClearFault : Prop :=
  (∀ (part : Part) (q : InService) (v : Service) (i : RecIdx) (s : State), recordRequest part .release q v i s →
    ((s.record i).hold = none → AnswersAlone (.release part) q .ok (reqHandleBytes q.raw ++ [0, 0]) s)
    ∧ ((s.record i).hold ≠ none → afterFieldRemoved (.release part) q i { s.record i with hold := none } s))
  ∧ ∀ (part : Part) (q : InService) (v : Service) (i : RecIdx) (s : State), recordRequest part .clearFault q v i s →
    ((s.record i).fault = none → AnswersAlone (.clearFault part) q .ok (reqHandleBytes q.raw ++ [0, 0]) s)
    ∧ ((s.record i).fault ≠ none → afterFieldRemoved (.clearFault part) q i { s.record i with fault := none } s)

/-- CLEAR NOTICES removes each member named in its set and completes OK with the notices that are left; a handle that
fails the test is refused STALE_HANDLE (R48). No cause is acknowledged: the pending set loses nothing. -/
def Obligations.ClearNoticesRemovesNamedMembers : Prop :=
  (∀ (part : Part) (q : InService) (v : Service) (s : State), storeRequest part .clearNotices q v s →
    s.names (reqHandle q.raw) = false →
    AnswersAlone (.clearNotices part) q .staleHandle (reqHandleBytes q.raw) s)
  ∧ ∀ (part : Part) (q : InService) (v : Service) (i : RecIdx) (s : State), recordRequest part .clearNotices q v i s →
    let n := (s.record i).notices
    let set := param q.raw 3
    ∃ t left, exec (.clearNotices part) s = .next t
      ∧ left = (⟨n.restarted && !set.getLsbD 0, n.drifted && !set.getLsbD 1, n.noContact && !set.getLsbD 2,
          n.moveFailed && !set.getLsbD 3⟩ : Notices)
      ∧ Answered s t q .ok (reqHandleBytes q.raw ++ [bitsByte [left.restarted, left.drifted, left.noContact,
          left.moveFailed]])
      ∧ t.record i = { s.record i with notices := left } ∧ OnlyRecord i s t ∧ t.lines = s.lines
      ∧ t.feeders = s.feeders ∧ t.attention.pendingSet &&& s.attention.pendingSet = s.attention.pendingSet

/-- CONTACT (R49, R8, R151, R153): refused NOT_ACTIVE for a RETIRING record and BUSY while a move or a parked CONTACT
exists, one that is READY and waits for room as well (the model's choice, log 17); otherwise the record is PROVISIONAL
with a hunt due now and a parked WAIT for its target completes ABORTED, and the request parks when its line was RUNNING
as it was served, or completes LINE_STOPPED. Now is the elapsed count at the operation's end (the
model's choice, log 13). A line halted between the serving and the operation's end leaves the
request parked (the model's choice, log 36). -/
def Obligations.ContactSendsTheRecordBack : Prop :=
  ∀ (part : Part) (q : InService) (v : Service) (i : RecIdx) (s : State), recordRequest part .contact q v i s →
    let r := s.record i
    let parked := ∃ n p, s.park n = some p ∧ p.kind = 0x0B ∧ p.handle = some (reqHandle q.raw)
    let running := v.lines[s.lineOfRecord i] = .running
    (r.state = .retiring → AnswersAlone (.contact part) q .notActive (reqHandleBytes q.raw) s)
    ∧ (r.state ≠ .retiring → (r.move ≠ none ∨ parked) →
        AnswersAlone (.contact part) q .busy (reqHandleBytes q.raw) s)
    ∧ (r.state ≠ .retiring → r.move = none → ¬ parked →
        ∃ t, exec (.contact part) s = .next t
          ∧ (running → ParkedIn s t q .huntEnd 0 0)
          ∧ (¬ running → Answered s t q .lineStopped (reqHandleBytes q.raw))
          ∧ (entryFree q s → WaitAborted i s t)
          ∧ t.record i =
              { r with
                state := .provisional, target := none, rateClass := none, stale := false, deadlineDue := none,
                huntFailures := 0, huntDue := some s.now }
          ∧ OnlyRecord i s t ∧ PickTold s t (s.lineOfRecord i))

/-- RETIRE by the table of R9: VACANT at once with no move, or after its QUEUED move ended ABORTED; RETIRING with the
target removed and the request parked while a move is in flight; NOT_ACTIVE when RETIRING. A vacated record's parked
WAIT and CONTACT complete ABORTED, and so does the WAIT of a target removed (R10, R41). -/
def Obligations.RetireByStateAndMove : Prop :=
  ∀ (part : Part) (q : InService) (v : Service) (i : RecIdx) (s : State), recordRequest part .retire q v i s →
    let r := s.record i
    let vacated (t : State) := t.record i = Record.vacant r.generation
      ∧ ParkedFor s t i 0x05 .aborted (fun _ => []) ∧ ParkedFor s t i 0x0B .aborted (fun _ => [])
    (r.state = .retiring → AnswersAlone (.retire part) q .notActive (reqHandleBytes q.raw) s)
    ∧ (r.state ≠ .retiring → r.move = none →
        ∃ t, exec (.retire part) s = .next t ∧ Answered s t q .ok (reqHandleBytes q.raw ++ [8])
          ∧ vacated t ∧ OnlyRecord i s t ∧ t.lines = s.lines)
    ∧ (∀ k m, r.state ≠ .retiring → QueuedAt s i k m →
        ∃ t, exec (.retire part) s = .next t ∧ Answered s t q .ok (reqHandleBytes q.raw ++ [8])
          ∧ vacated t ∧ t.slot k = none ∧ EndTold s t m .aborted ∧ OnlyRecordAndSlot i k s t)
    ∧ (∀ k m, r.state ≠ .retiring → FlyingAt s i k m →
        ∃ t, exec (.retire part) s = .next t ∧ ParkedIn s t q .vacant 0 0 ∧ (entryFree q s → WaitAborted i s t)
          ∧ t.record i = { r with state := .retiring, target := none } ∧ OnlyRecord i s t ∧ t.lines = s.lines)

/-! ### Feeders -/

/-- CONFIGURE FEEDER (R86, R87, R96, R97): refused RECORDS_PRESENT, with an empty result area (the model's choice, log
14), when it would change the line of a configured feeder in use; otherwise the settings are stored in range and the
balancer goes by the enable, and a requested enable off ends the feeder's QUEUED moves of origin BALANCER, also where
the balancer was OFF already (the model's choice, log 19): each record has its target removed and the last move result
ABORTED, a parked WAIT completes ABORTED, and the Batch Engine is told of a move it enqueued (R73, R75, R76); the Balance
Unit, OFF by then, is not changed by its notices. A raised in-flight limit is an event for the line's pick (R61). A timer
runs from the count at the operation's end (the model's choice, log 13). -/
def Obligations.ConfigureFeederStoresSettings : Prop :=
  ∀ (part : Part) (q : InService) (v : Service) (s : State), storeRequest part .configureFeeder q v s →
    let f := feederOf (param q.raw 0)
    let x := s.feeder f
    let l := lineNoOf (param q.raw 1)
    let used := ∃ j, (s.record j).state ≠ .vacant ∧ (s.record j).feeder = f
    let on := param q.raw 9 ≠ 0
    (x.configured = true → x.line ≠ l → used → AnswersAlone (.configureFeeder part) q .recordsPresent [] s)
    ∧ ((x.configured = false ∨ x.line = l ∨ ¬ used) →
        (on ∨ MoveTableLaw s) →
        ∃ t y, exec (.configureFeeder part) s = .next t ∧ t.feeder f = y
          ∧ y.configured = true ∧ y.line = l ∧ y.inFlightLimit = inRange 1 4 (param q.raw 2).toNat
          ∧ y.coolDown = inRange 10 3600 (paramNat q.raw 3 2) ∧ y.threshold = paramNat q.raw 5 2
          ∧ y.persistence = inRange 10 3600 (paramNat q.raw 7 2) ∧ (y.enable = true ↔ on)
          ∧ y.priority = min (param q.raw 10).toNat 6
          ∧ y.sum = x.sum ∧ y.count = x.count ∧ y.excluded = x.excluded ∧ y.lastHandle = x.lastHandle
          ∧ Answered s t q .ok
              ([byteOf f.val, byteOf l.val, byteOf y.inFlightLimit] ++ be16 y.coolDown ++ be16 y.threshold
                ++ be16 y.persistence ++ [boolByte y.enable, byteOf y.priority])
          ∧ (¬ on → y.state = .off ∧ y.timer = none ∧ y.selectionPending = false)
          ∧ (on → x.enable = false →
              (y.above = true → y.state = .watching ∧ y.timer = some (s.now + 10 * y.persistence))
              ∧ (y.above = false → y.state = .calm ∧ y.timer = none))
          ∧ (on → x.enable = true →
              (x.state = .calm → y.above = true → y.state = .watching ∧ y.timer = some (s.now + 10 * y.persistence))
              ∧ (x.state = .watching → y.above = false → y.state = .calm ∧ y.timer = none)
              ∧ (((x.state ≠ .calm ∨ y.above = false) ∧ (x.state ≠ .watching ∨ y.above = true)) →
                  y.state = x.state ∧ y.timer = x.timer ∧ y.selectionPending = x.selectionPending))
          ∧ (on → TableStands s t ∧ t.sched = s.sched ∧ t.batch = s.batch ∧ LinesStandButMarks s t)
          ∧ (¬ on → ∀ k m, t.slot k = some m → m.state = .queued → m.origin = .balancer →
              (t.record m.index).feeder ≠ f)
          ∧ (∀ k m, s.slot k = some m → (m.state ≠ .queued ∨ m.origin ≠ .balancer
              ∨ (s.record m.index).feeder ≠ f) → t.slot k = some m)
          ∧ (let gone (_ : SlotNo) (m : Move) := m.state = .queued ∧ m.origin = .balancer
              ∧ (s.record m.index).feeder = f
            ¬ on → QueuedEnded s t gone .aborted v.stamp ∧ BatchToldOf s t gone .aborted ∧ OthersStand s t gone
              ∧ LinesStandButEnded s t gone ∧ t.sched = { s.sched with slots := t.sched.slots })
          ∧ (x.inFlightLimit < y.inFlightLimit → PickTold s t l)
          ∧ (∀ g, g ≠ f → t.feeder g = s.feeder g) ∧ OutsideStands s t)

/-- A record is a candidate of a feeder's selection scan (R99). -/
def isCandidate (f : FeederNo) (now : Nat) (r : Record) : Prop :=
  r.feeder = f ∧ r.state = .active ∧ r.kind = .single ∧ r.stale = false ∧ r.phase ≠ none ∧ r.hold = none
    ∧ r.fault = none ∧ r.move = none ∧ r.target = none ∧ (∀ d, r.coolDown = some d → d ≤ now)
    ∧ r.dailyUsed < r.dailyBudget

/-- A candidate qualifies as an importer or as an exporter, with a score (R100, R101). -/
def qualifiesAs (x : Feeder) (r : Record) (importer : Bool) (dest : Phase) (score : Nat) : Prop :=
  (r.current.a.natAbs : Int) < x.spread ∧ score = (2 * (r.current.a.natAbs : Int) - x.spread).natAbs
    ∧ ((importer = true ∧ 0 < r.current.a ∧ r.phase = some x.heaviest ∧ dest = x.lightest)
        ∨ (importer = false ∧ r.current.a < 0 ∧ r.phase = some x.lightest ∧ dest = x.heaviest))
    ∧ r.allowed.get dest = true

/-- The scan's choice is the qualifying candidate of lowest score, importers before exporters, then lowest index; it
chooses none only when none qualifies (R99 to R101). -/
def Obligations.SelectionChoosesTheBestCandidate : Prop :=
  ∀ (f : FeederNo) (s : State),
    (∀ c, s.choose f = some c →
      isCandidate f s.now (s.record c.index)
        ∧ qualifiesAs (s.feeder f) (s.record c.index) c.importer c.phase c.score
        ∧ ∀ j importer dest score, isCandidate f s.now (s.record j) →
            qualifiesAs (s.feeder f) (s.record j) importer dest score →
            c.score < score ∨ (c.score = score ∧ ((c.importer = true ∧ importer = false)
              ∨ (c.importer = importer ∧ c.index ≤ j))))
    ∧ (s.choose f = none → ∀ j, isCandidate f s.now (s.record j) →
        ∀ importer dest score, ¬ qualifiesAs (s.feeder f) (s.record j) importer dest score)

/-- A balancer selection (R93, R94, R98): without the mark no effect; with the spread fallen CALM; with a choice and a free
slot the target is set, the move enqueued and the balancer ACTING on that handle; with no slot RESTING; with no
candidate RESTING and NO_CANDIDATE raised. A selection that a field reset has overtaken sets and enqueues and raises
all the same, and leaves the balancers as the field reset put them. A record left in the waiting list is enqueued as any
other (the model's choice, log 34). The candidates' cool-downs are tested, and a timer runs, from the count at the
operation's end (the model's choice, log 43, log 13), and resolve mode and attempts left of a QUEUED move are the model's
choice (log 47). -/
def Obligations.BalancerSelectionActs : Prop :=
  ∀ (part : Part) (f : FeederNo) (s u : State) (v : Service), opened part (· == .selection f) s = some (v, u) →
    (v.passed = false → exec (.balancerSelection part f) s = .next u)
    ∧ (v.passed = true → v.overtaken = false →
        ((u.feeder f).above = false →
          ∃ t, exec (.balancerSelection part f) s = .next t ∧ TableStands s t ∧ t.sched = s.sched
            ∧ t.feeder f = { u.feeder f with state := .calm, timer := none, selectionPending := false }
            ∧ (∀ g, g ≠ f → t.feeder g = s.feeder g) ∧ OutsideStands s t)
        ∧ (∀ c k, (u.feeder f).above = true → u.choose f = some c → LowestFree u k →
          ∃ t, exec (.balancerSelection part f) s = .next t
            ∧ t.record c.index =
                { s.record c.index with
                  target := some ⟨c.phase, (u.feeder f).priority, .balancer⟩, move := some k }
            ∧ t.slot k = some (enqueued s c.index c.phase (u.feeder f).priority .balancer (some .balancer))
            ∧ t.sched.entryCount = s.sched.entryCount + 1
            ∧ t.feeder f =
                { u.feeder f with
                  state := .acting, timer := none, lastHandle := some ⟨c.index, (s.record c.index).generation⟩ }
            ∧ (∀ g, g ≠ f → t.feeder g = s.feeder g) ∧ OnlyRecordAndSlot c.index k u t
            ∧ PickTold s t (s.lineOfRecord c.index))
        ∧ (∀ c, (u.feeder f).above = true → u.choose f = some c → (∀ k, u.slot k ≠ none) →
          ∃ t, exec (.balancerSelection part f) s = .next t ∧ TableStands s t ∧ t.sched = s.sched
            ∧ t.feeder f =
                { u.feeder f with state := .resting, timer := some (s.now + 10 * (u.feeder f).persistence) }
            ∧ (∀ g, g ≠ f → t.feeder g = s.feeder g) ∧ OutsideStands s t)
        ∧ ((u.feeder f).above = true → u.choose f = none →
          ∃ t, exec (.balancerSelection part f) s = .next t ∧ TableStands s t ∧ t.sched = s.sched
            ∧ t.feeder f =
                { u.feeder f with state := .resting, timer := some (s.now + 10 * (u.feeder f).persistence) }
            ∧ (∀ g, g ≠ f → t.feeder g = s.feeder g) ∧ Raised t .noCandidate ∧ OutsideStands s t))
    ∧ (v.passed = true → v.overtaken = true →
        let x := u.feeder f
        let nothing (t : State) := TableStands s t ∧ t.sched = s.sched ∧ t.feeders = u.feeders ∧ OutsideStands s t
        (x.above = false → ∃ t, exec (.balancerSelection part f) s = .next t ∧ nothing t)
        ∧ (∀ c, x.above = true → u.choose f = some c → (∀ k, u.slot k ≠ none) →
          ∃ t, exec (.balancerSelection part f) s = .next t ∧ nothing t)
        ∧ (x.above = true → u.choose f = none →
          ∃ t, exec (.balancerSelection part f) s = .next t ∧ nothing t ∧ Raised t .noCandidate)
        ∧ ∀ c k, x.above = true → u.choose f = some c → LowestFree u k →
          ∃ t, exec (.balancerSelection part f) s = .next t
            ∧ t.record c.index =
                { s.record c.index with target := some ⟨c.phase, x.priority, .balancer⟩, move := some k }
            ∧ t.slot k = some (enqueued s c.index c.phase x.priority .balancer (some .balancer))
            ∧ t.feeders = u.feeders ∧ OnlyRecordAndSlot c.index k u t)

/-! ### Batches -/

/-- STAGE ENTRY (R105): refused BATCH_BUSY while the batch runs, STALE_HANDLE for its handle, PHASE_NOT_ALLOWED,
DUPLICATE_ENTRY and LIST_FULL in that order; otherwise the entry joins the tail of the list, a fresh one unless the batch
is STAGING, and the batch is STAGING. -/
def Obligations.StageEntryJoinsTheList : Prop :=
  ∀ (part : Part) (q : InService) (v : Service) (s : State), storeRequest part .stageEntry q v s →
    let h := reqHandle q.raw
    let busy := v.batch = .running ∨ v.batch = .settling ∨ v.batch = .cancelling
    let refused (st : Status) := AnswersAlone (.stageEntry part) q st (reqHandleBytes q.raw) s
    let allowed (p : Phase) := phaseOf (param q.raw 3).toNat = some p ∧ (s.record h.index).allowed.get p = true
    let staged := s.batch.state = .staging ∧ ∃ e ∈ s.batch.entries, e.handle.index = h.index
    let full := s.batch.state = .staging ∧ 64 ≤ s.batch.entries.length
    (busy → refused .batchBusy)
    ∧ (¬ busy →
        (s.names h = false → refused .staleHandle)
        ∧ (s.names h = true → (∀ p, ¬ allowed p) → refused .phaseNotAllowed)
        ∧ (∀ p, s.names h = true → allowed p → staged → refused .duplicateEntry)
        ∧ (∀ p, s.names h = true → allowed p → ¬ staged → full → refused .listFull)
        ∧ (∀ p, s.names h = true → allowed p → ¬ staged → ¬ full →
            let l := if s.batch.state = .staging then s.batch.entries else []
            ∃ t, exec (.stageEntry part) s = .next t
              ∧ Answered s t q .ok (reqHandleBytes q.raw ++ [byteOf l.length, byteOf (l.length + 1)])
              ∧ t.batch.entries = l ++ [⟨h, p, .pending⟩] ∧ t.batch.state = .staging
              ∧ (s.batch.state = .staging → t.batch = { s.batch with entries := t.batch.entries })
              ∧ (s.batch.state ≠ .staging →
                  t.batch = { Batch.reset with
                    entries := t.batch.entries, state := .staging, startParked := s.batch.startParked })
              ∧ TableStands s t ∧ t.sched = s.sched ∧ t.lines = s.lines ∧ t.feeders = s.feeders
              ∧ OutsideStands s t))

/-- START BATCH (R106, R107): BATCH_BUSY while it runs, BATCH_EMPTY with no staging list; otherwise the parameters are
stored, wave 1 begins at entry 0 with its examination claimed, and the request parks. SETTLE EXPIRY begins the next wave
(R112). -/
def Obligations.StartBatchAndSettleBeginWaves : Prop :=
  (∀ (part : Part) (q : InService) (v : Service) (s : State), storeRequest part .startBatch q v s →
    ((v.batch = .running ∨ v.batch = .settling ∨ v.batch = .cancelling) →
      AnswersAlone (.startBatch part) q .batchBusy [] s)
    ∧ ((v.batch = .empty ∨ v.batch = .ended) → AnswersAlone (.startBatch part) q .batchEmpty [] s)
    ∧ (v.batch = .staging →
      ∃ t, exec (.startBatch part) s = .next t ∧ ParkedIn s t q .batchEnd 0 0
        ∧ t.batch =
            { s.batch with
              waveSize := some (param q.raw 0).toNat, settle := some (min (paramNat q.raw 1 2) 600),
              stopOnFailure := onOff (param q.raw 3), priority := min (param q.raw 4).toNat 6, startParked := true,
              state := .running, waveNumber := 1, waveFirst := some 0,
              waveLast := some (min ((param q.raw 0).toNat - 1) (s.batch.entries.length - 1)), next := some 0,
              examinationPending := true, settleDue := none }
        ∧ Claimed t .wave ∧ TableStands s t ∧ t.sched = s.sched ∧ t.lines = s.lines ∧ t.feeders = s.feeders
        ∧ OutsideStands s t))
  ∧ ∀ (d y : Nat) (s : State), s.batch.state = .settling → s.batch.settleDue = some d → d ≤ s.now →
      s.batch.waveLast = some y →
      ∃ t, exec .settleExpiry s = .next t
        ∧ t.batch =
            { s.batch with
              state := .running, waveNumber := s.batch.waveNumber + 1, waveFirst := some (y + 1),
              waveLast := some (min (y + 1 + s.batch.waveSize.getD 1 - 1) (s.batch.entries.length - 1)),
              next := some (y + 1), examinationPending := true, settleDue := none }
        ∧ Claimed t .wave ∧ t = { s with batch := t.batch, store := t.store, moment := s.moment + 1 }
        ∧ t.store = { s.store with claims := t.store.claims }

/-- CANCEL BATCH (R114, R115): it completes OK in every state. STAGING is emptied; EMPTY, CANCELLING and ENDED are left;
RUNNING and SETTLING have their PENDING entries FLUSHED and their QUEUED moves ended with the entries ABORTED, and the
batch is CANCELLING while entries are in move and ENDED once none is, its parked START BATCH completing CANCELLED. Each
record whose move was withdrawn has its target removed and the last move result ABORTED, a parked WAIT completes ABORTED,
and the Balance Unit is told of a move it enqueued (R73, R75, R76, R95). The batch state is the one read as the request was
served; a CANCEL BATCH that a field reset has overtaken ends the QUEUED moves of origin BATCH of the entries the field
reset left ABORTED, and leaves the list (the model's choice, log 32). A timer runs from the count at the operation's end
(log 13). -/
def Obligations.CancelBatchFlushesTheList : Prop :=
  ∀ (part : Part) (q : InService) (v : Service) (s : State), storeRequest part .cancelBatch q v s →
    ((v.batch = .empty ∨ v.batch = .cancelling ∨ v.batch = .ended) → AnswersAlone (.cancelBatch part) q .ok [] s)
    ∧ (v.batch = .staging →
      ∃ t, exec (.cancelBatch part) s = .next t ∧ Answered s t q .ok []
        ∧ t.batch = { Batch.reset with startParked := s.batch.startParked }
        ∧ TableStands s t ∧ t.sched = s.sched ∧ t.lines = s.lines ∧ t.feeders = s.feeders ∧ OutsideStands s t)
    ∧ ((v.batch = .running ∨ v.batch = .settling) → v.overtaken = false →
        MoveTableLaw s → StagingLaw s →
      ∃ t, exec (.cancelBatch part) s = .next t ∧ Answered s t q .ok []
        ∧ t.batch.entries =
            s.batch.entries.map (fun e =>
              if e.result = .pending then { e with result := .flushed }
              else if e.result = .inMove ∧ (s.batchQueued e).isSome then { e with result := .aborted } else e)
        ∧ (∀ e ∈ s.batch.entries, e.result = .inMove → ∀ k, s.batchQueued e = some k → t.slot k = none)
        ∧ ((∃ e ∈ t.batch.entries, e.result = .inMove) →
            t.batch =
              { s.batch with
                entries := t.batch.entries, state := .cancelling, settleDue := none, examinationPending := false,
                stalled := false })
        ∧ ((∀ e ∈ t.batch.entries, e.result ≠ .inMove) →
            BatchEnded { s.batch with entries := t.batch.entries } .cancelled s t)
        ∧ (let gone (k : SlotNo) (m : Move) := m.origin = .batch
            ∧ ∃ e ∈ s.batch.entries, e.result = .inMove ∧ QueuedAt s e.handle.index k m
          QueuedEnded s t gone .aborted v.stamp ∧ (∀ k m, s.slot k = some m → gone k m → BalancerTold s t m)
            ∧ OthersStand s t gone ∧ LinesStandButEnded s t gone)
        ∧ t.sched = { s.sched with slots := t.sched.slots } ∧ FeederSettingsStand s t ∧ OutsideStands s t)
    ∧ ((v.batch = .running ∨ v.batch = .settling) → v.overtaken = true → MoveTableLaw s → StagingLaw s →
      ∃ t, exec (.cancelBatch part) s = .next t ∧ Answered s t q .ok []
        ∧ (let gone (k : SlotNo) (m : Move) := m.origin = .batch
            ∧ ∃ e ∈ s.batch.entries, e.result = .aborted ∧ QueuedAt s e.handle.index k m
          QueuedEnded s t gone .aborted v.stamp ∧ (∀ k m, s.slot k = some m → gone k m → BalancerTold s t m)
            ∧ BatchToldOf s t gone .aborted ∧ OthersStand s t gone ∧ LinesStandButEnded s t gone)
        ∧ t.sched = { s.sched with slots := t.sched.slots } ∧ FeederSettingsStand s t ∧ OutsideStands s t)

/-- The result of the nine tests of an entry, in order; none when it passes all (R108). -/
def examinedAs (s : State) (e : Entry) (x : Option EntryResult) : Prop :=
  let r := s.record e.handle.index
  (s.names e.handle = false ∧ x = some (.refused .staleHandle))
  ∨ (s.names e.handle = true ∧
      ((r.state ≠ .active ∧ x = some (.refused .notActive))
      ∨ (r.state = .active ∧
          ((r.kind = .three ∧ x = some (.refused .notMovable))
          ∨ (r.kind = .single ∧
              ((r.hold ≠ none ∧ x = some (.refused .held))
              ∨ (r.hold = none ∧
                  ((r.fault ≠ none ∧ x = some (.refused .faulted))
                  ∨ (r.fault = none ∧
                      (((r.move ≠ none ∨ r.target ≠ none) ∧ x = some (.refused .busy))
                      ∨ (r.move = none ∧ r.target = none ∧
                          ((r.allowed.get e.toPhase = false ∧ x = some (.refused .phaseNotAllowed))
                          ∨ (r.allowed.get e.toPhase = true ∧
                              ((r.dailyBudget ≤ r.dailyUsed ∧ x = some (.refused .budgetSpent))
                              ∨ (r.dailyUsed < r.dailyBudget ∧
                                  ((r.phase = some e.toPhase ∧ x = some .already)
                                  ∨ (r.phase ≠ some e.toPhase ∧ x = none)))))))))))))))))

/-- The free slots, lowest first. -/
def freeSlots (s : State) : List SlotNo := (List.finRange 32).filter (fun k => (s.slot k).isNone)

/-- The indexes, from an entry to the wave's last, of the entries that pass every test. -/
def passing (s : State) (n y : Nat) : List Nat :=
  ((List.range (y + 1)).drop n).filter (fun k => s.batch.entries[k]?.any (fun e => (s.examine e).isNone))

/-- A wave examination (R107 to R109, R111, R118): without its mark no effect. Each entry from the next entry on takes the
result of the first test it fails; the entries that pass take the free slots in turn, lowest first and in list order,
each with its target set, its move enqueued and its result IN_MOVE; one that passes with no slot left stays PENDING and
stalls the wave. With no stall the wave is examined, and ends when none of its entries is IN_MOVE. Overtaken by a field
reset, the examination sets and enqueues all the same and leaves the batch as the field reset put it. A record left in
the waiting list is enqueued as any other (the model's choice, log 34). The settle runs from the count at the operation's
end (the model's choice, log 13), and resolve mode and attempts left of a QUEUED move are the model's choice (log 47). -/
def Obligations.WaveExaminationPlacesEntries : Prop :=
  (∀ (s : State) (e : Entry) (x : Option EntryResult), examinedAs s e x ↔ s.examine e = x)
  ∧ ∀ (part : Part) (s u : State) (v : Service), opened part (· == .wave) s = some (v, u) →
    (v.passed = false → exec (.waveExamination part) s = .next u)
    ∧ ∀ n y : Nat, v.passed = true → v.next = some n → u.batch.waveLast = some y → StagingLaw u →
        let b := u.batch
        let passed := passing u n y
        let free := freeSlots u
        let stall := passed[free.length]?
        let last := stall.getD (y + 1)
        let told : Batch :=
          { b with
            entries := b.entries.mapIdx (fun k e =>
              if n ≤ k ∧ k < last then { e with result := (u.examine e).getD .inMove } else e)
            next := stall
            stalled := stall.isSome }
        let placed (j k : Nat) (slot : SlotNo) (e : Entry) : Prop :=
          passed[j]? = some k ∧ free[j]? = some slot ∧ b.entries[k]? = some e
        let waveDone := b.state = .running ∧ stall = none
          ∧ ∀ k e, inWave b k → told.entries[k]? = some e → e.result ≠ .inMove
        ∃ t, exec (.waveExamination part) s = .next t
          ∧ (∀ j k slot e, placed j k slot e →
              t.record e.handle.index =
                { s.record e.handle.index with target := some ⟨e.toPhase, b.priority, .batch⟩, move := some slot }
              ∧ t.slot slot = some
                { enqueued s e.handle.index e.toPhase b.priority .batch (some (.batch k)) with
                  entryOrder := s.sched.entryCount + 1 + j }
              ∧ PickTold s t (s.lineOfRecord e.handle.index))
          ∧ (∀ i, (∀ j k slot e, placed j k slot e → e.handle.index ≠ i) → t.record i = s.record i)
          ∧ (∀ slot, slot ∉ free.take passed.length → t.slot slot = s.slot slot)
          ∧ t.sched =
              { s.sched with
                slots := t.sched.slots, entryCount := s.sched.entryCount + min passed.length free.length }
          ∧ (v.overtaken = true → t.batch = b)
          ∧ (v.overtaken = false → (waveDone → WaveEnded told s t) ∧ (¬ waveDone → t.batch = told))
          ∧ t.feeders = s.feeders ∧ LinesStandButMarks s t ∧ OutsideStands s t

/-! ### Lines and settings served directly -/

/-- CONFIGURE LINE stores the five settings, each brought into its range, and completes OK with them; nothing else of
either line changes (R123). -/
def Obligations.ConfigureLineStoresSettings : Prop :=
  ∀ (q : InService) (s : State), directRequest .configureLine q s →
    let l := lineNoOf (param q.raw 0)
    ∃ t x, exec .configureLine s = .next t ∧ t.line l = x
      ∧ x = { s.line l with
          retryLimit := min (param q.raw 1).toNat 3
          turnaround := inRange 2 255 (param q.raw 2).toNat
          confirmDelay := inRange 2 255 (param q.raw 3).toNat
          silenceLimit := inRange 4 64 (param q.raw 4).toNat
          huntInterval := inRange 10 3600 (paramNat q.raw 5 2) }
      ∧ Answered (taken s) t q .ok
          ([byteOf l.val, byteOf x.retryLimit, byteOf x.turnaround, byteOf x.confirmDelay, byteOf x.silenceLimit]
            ++ be16 x.huntInterval)
      ∧ (∀ m, m ≠ l → t.line m = s.line m) ∧ TableStands s t ∧ t.sched = s.sched ∧ t.feeders = s.feeders
      ∧ t.batch = s.batch ∧ OutsideStands s t

/-- LINE START (R120): a STOPPED or SUSPENDED line becomes RUNNING and IDLE with the run number advanced and the silence
count 0, and picks; a RUNNING line is not changed; either way OK with the line state before and after. -/
def Obligations.LineStartRunsTheLine : Prop :=
  ∀ (q : InService) (s : State), directRequest .lineStart q s →
    let l := lineNoOf (param q.raw 0)
    ∃ t, exec .lineStart s = .next t ∧ Answered (taken s) t q .ok [byteOf (s.line l).state.code, 1]
      ∧ (t.line l).state = .running
      ∧ ((s.line l).state = .running → t.line l = s.line l)
      ∧ ((s.line l).state ≠ .running →
          t.line l =
            { s.line l with
              state := .running, run := (s.line l).run + 1, silence := 0, activity := .idle,
              pickWanted := (t.line l).pickWanted }
          ∧ ((s.line l).receiveHold.length < 2 → (t.line l).pickWanted = true))
      ∧ (∀ m, m ≠ l → t.line m = s.line m) ∧ TableStands s t ∧ t.sched = s.sched ∧ t.feeders = s.feeders
      ∧ t.batch = s.batch ∧ OutsideStands s t

/-- LINE STOP (R121, R79, R139): a RUNNING line becomes STOPPED and IDLE with nothing outstanding, held or bound, its run
number, silence count and settings kept; every move in flight on it not yet closed is closed and its end claimed; the
hunts in progress end uncounted; the CONTACTs parked for its records complete LINE_STOPPED. A SUSPENDED line becomes
STOPPED; a STOPPED line is not changed. Every move in flight holds a sequence number (log 28). -/
def Obligations.LineStopHaltsTheLine : Prop :=
  ∀ (q : InService) (s : State), directRequest .lineStop q s →
    let l := lineNoOf (param q.raw 0)
    ∃ t, exec .lineStop s = .next t ∧ Answered (taken s) t q .ok [byteOf (s.line l).state.code, 0]
      ∧ (t.line l).state = .stopped ∧ (t.line l).run = (s.line l).run ∧ (t.line l).silence = (s.line l).silence
      ∧ (t.line l).settings = (s.line l).settings
      ∧ ((s.line l).state = .running →
          (t.line l).activity = .idle ∧ (t.line l).out = none ∧ (t.line l).receiveHold = [] ∧ (t.line l).round = none
            ∧ (t.line l).bindings = [] ∧ (t.line l).attemptsLeft = 0 ∧ (t.line l).timer = .stopped
            ∧ (t.line l).pickAgain = false
            ∧ MovesClosed l s t ∧ HuntsAbandoned l s t ∧ HaltLeaves (· = l) s t
            ∧ (∀ i, s.lineOfRecord i = l → ParkedFor s t i 0x0B .lineStopped (fun _ => [])))
      ∧ ((s.line l).state = .suspended → t.line l = { s.line l with state := .stopped } ∧ t.sched = s.sched)
      ∧ ((s.line l).state = .stopped → t.line l = s.line l ∧ t.sched = s.sched)
      ∧ t.sched = { s.sched with slots := t.sched.slots }
      ∧ (∀ m, m ≠ l → t.line m = s.line m) ∧ TableStands s t ∧ t.feeders = s.feeders ∧ t.batch = s.batch
      ∧ OutsideStands s t

/-- CONFIGURE RATE (R141, R142): LINE_RUNNING while either line runs; BAD_TABLE for an entry that would break the order
of the table; otherwise the entry is written, the others kept. -/
def Obligations.ConfigureRateKeepsTheOrder : Prop :=
  ∀ (q : InService) (s : State), directRequest .configureRate q s →
    let c := rateNoOf (param q.raw 0)
    let longest := paramNat q.raw 1 2
    let bits := paramNat q.raw 3 2
    let bad := bits < 8 ∨ longest < bits ∨ (∃ d : RateNo, d.val + 1 = c.val ∧ longest ≤ s.maxStart d)
      ∨ ∃ d : RateNo, d.val = c.val + 1 ∧ s.maxStart d ≤ longest
    let image (t : State) := byteOf c.val :: be16 (t.maxStart c) ++ be16 (t.bitLength c)
    ((∃ l, (s.line l).state = .running) → TakingAnswersAlone .configureRate q .lineRunning (image s) s)
    ∧ ((∀ l, (s.line l).state ≠ .running) → bad → TakingAnswersAlone .configureRate q .badTable (image s) s)
    ∧ ((∀ l, (s.line l).state ≠ .running) → ¬ bad →
        ∃ t, exec .configureRate s = .next t ∧ Answered (taken s) t q .ok (image t)
          ∧ t.maxStart c = longest ∧ t.bitLength c = bits
          ∧ (∀ d, d ≠ c → t.maxStart d = s.maxStart d ∧ t.bitLength d = s.bitLength d)
          ∧ TableStands s t ∧ UnitsStand s t ∧ t.time = s.time ∧ t.survey = s.survey ∧ t.port = s.port
          ∧ t.pending = s.pending)

/-- CONFIGURE SURVEY (R159): the period, brought into 5 to 3600 s, is stored in every case; the enable off stops the
timer; the enable on starts it with the period, unless it was on with this same period. -/
def Obligations.ConfigureSurveyStoresThePeriod : Prop :=
  ∀ (q : InService) (s : State), directRequest .configureSurvey q s →
    let on := param q.raw 0 ≠ 0
    let n := inRange 5 3600 (paramNat q.raw 1 2)
    ∃ t, exec .configureSurvey s = .next t ∧ (t.survey.enable = true ↔ on) ∧ t.survey.period = n
      ∧ Answered (taken s) t q .ok
          (boolByte t.survey.enable :: be16 n ++ be16 (remainingTenths t.survey.timer s.now))
      ∧ (¬ on → t.survey.timer = none)
      ∧ (on → (s.survey.enable = false ∨ s.survey.period ≠ n) → t.survey.timer = some (s.now + 10 * n))
      ∧ (on → s.survey.enable = true → s.survey.period = n → t.survey.timer = s.survey.timer)
      ∧ TableStands s t ∧ UnitsStand s t ∧ t.time = s.time ∧ t.rate = s.rate ∧ t.port = s.port
      ∧ t.pending = s.pending

/-- SET TIME loads the Time Count with its value, claims no store, and completes OK with the count before and the value
loaded; the elapsed count and everything else stand (R156). -/
def Obligations.SetTimeLoadsTheCount : Prop :=
  ∀ (q : InService) (s : State), directRequest .setTime q s →
    ∃ t n, exec .setTime s = .next t ∧ n = (BitVec.ofNat 32 (paramNat q.raw 0 4) : Word32)
      ∧ t.time = { s.time with count := n } ∧ Answered (taken s) t q .ok (be32 s.time.count.toNat ++ be32 n.toNat)
      ∧ t.store = s.store ∧ UnitsStand s t ∧ t.rate = s.rate ∧ t.survey = s.survey ∧ t.port = s.port
      ∧ t.pending = s.pending

/-! ### The clock and the expiries -/

/-- Both counts advance by 1 (R154, R155). The advance onto a record's cool-down until is an event to be told where the
record has a QUEUED move, and the advance onto a hunt due where the record is PROVISIONAL, each once (R61, R136, R155; that
it waits to be told is the model's choice, log 6). An advance onto a multiple of 864000 claims the day rollover, which sets
every daily used to 0 and changes no other field (R18). -/
def Obligations.CountsAdvanceAndDaysRollOver : Prop :=
  (∀ s : State, ∃ t, exec .timeCountAdvance s = .next t ∧ t.time.count = s.time.count + 1
    ∧ t.time.elapsed = s.time.elapsed + 1
    ∧ (∃ new, t.time.reached = s.time.reached ++ new ∧ new.Nodup
        ∧ (∀ i, Reached.coolDown i ∈ new ↔
            (s.record i).coolDown = some (s.now + 1)
              ∧ ∃ k m, (s.record i).move = some k ∧ s.slot k = some m ∧ m.state = .queued)
        ∧ ∀ i, Reached.huntDue i ∈ new ↔
            (s.record i).huntDue = some (s.now + 1) ∧ (s.record i).state = .provisional)
    ∧ (864000 ∣ (s.time.count + 1).toNat →
        t.store = { s.store with claims := s.store.claims ++ [⟨.dayRollover, s.moment + 1⟩] })
    ∧ (¬ 864000 ∣ (s.time.count + 1).toNat → t.store = s.store)
    ∧ t = { s with time := t.time, store := t.store, moment := s.moment + 1 })
  ∧ ∀ (part : Part) (s u : State) (v : Service), opened part (· == .dayRollover) s = some (v, u) →
    ∃ t, exec (.dayRollover part) s = .next t ∧ (∀ i, t.record i = { s.record i with dailyUsed := 0 })
      ∧ t.sched = s.sched ∧ t.feeders = s.feeders ∧ t.batch = s.batch ∧ LinesStandButMarks s t ∧ OutsideStands s t
      ∧ (∀ l, PickTold s t l)

/-- A report deadline reached claims its operation once, with the record's generation and the due value; when it is
served and all of them still hold, the record becomes stale with no deadline and STALE is raised, and otherwise it has
no effect (R16). -/
def Obligations.DeadlineExpiryMakesStale : Prop :=
  (∀ (i : RecIdx) (d : Nat) (s : State), (s.record i).deadlineDue = some d → d ≤ s.now →
    let c : Claim := .deadline ⟨i, (s.record i).generation⟩ d
    (¬ Claimed s c → (∀ v, s.store.inProgress = some v → v.work ≠ .claim c) →
      exec (.reportDeadlineReached i) s =
        .next { s with
          moment := s.moment + 1
          store := { s.store with claims := s.store.claims ++ [⟨c, s.moment + 1⟩] } })
    ∧ ((Claimed s c ∨ ∃ v, s.store.inProgress = some v ∧ v.work = .claim c) →
        exec (.reportDeadlineReached i) s = .next s))
  ∧ ∀ (part : Part) (i : RecIdx) (h : Handle) (d : Nat) (s u : State) (v : Service), h.index = i →
    opened part (fun c => match c with | .deadline h _ => h.index == i | _ => false) s = some (v, u) →
    v.work = .claim (.deadline h d) →
    let stands := (s.record i).generation = h.generation ∧ ((s.record i).state = .active ∨ (s.record i).state = .retiring)
      ∧ (s.record i).stale = false ∧ (s.record i).deadlineDue = some d
    (stands → ∃ t, exec (.deadlineExpiry part i) s = .next t
      ∧ t.record i = { s.record i with stale := true, deadlineDue := none } ∧ Raised t .stale ∧ OnlyRecord i s t
      ∧ t.lines = s.lines)
    ∧ (¬ stands → exec (.deadlineExpiry part i) s = .next u)

/-- An expiry that is an event for a line's pick is told once (R61, R136, log 6): a cool-down passed of a record with a
QUEUED move, a hunt due of a PROVISIONAL record. A confirm delay that runs out makes its SWITCHING move CHECKING with a
CHECK due at that count (R69). The persistence timer's expiry (R93) in WATCHING, or in RESTING with the
spread above the threshold, claims a selection; RESTING with the spread not above it goes CALM. -/
def Obligations.ExpiriesReachTheLines : Prop :=
  (∀ (i : RecIdx) (s : State), Reached.coolDown i ∈ s.time.reached →
    ∃ t, exec (.coolDownPassed i) s = .next t
      ∧ t = { s with lines := t.lines, time := { s.time with reached := s.time.reached.erase (.coolDown i) } }
      ∧ LinesStandButMarks s t
      ∧ (∀ k m, (s.record i).move = some k → s.slot k = some m → m.state = .queued → PickTold s t (s.lineOfRecord i)))
  ∧ (∀ (i : RecIdx) (s : State), Reached.huntDue i ∈ s.time.reached →
    ∃ t, exec (.huntDueReached i) s = .next t
      ∧ t = { s with lines := t.lines, time := { s.time with reached := s.time.reached.erase (.huntDue i) } }
      ∧ LinesStandButMarks s t ∧ ((s.record i).state = .provisional → PickTold s t (s.lineOfRecord i)))
  ∧ (∀ (k : SlotNo) (m : Move) (d : Nat) (s : State), s.slot k = some m → m.state = .switching → m.closed = false →
    m.confirmDue = some d →
    (d ≤ s.now → ∃ t, exec (.confirmDelayExpiry k) s = .next t
      ∧ t.slot k = some { m with state := .checking, checkDue := some d, confirmDue := none }
      ∧ OtherSlotsStand k s t ∧ t.sched = { s.sched with slots := t.sched.slots } ∧ LinesStandButMarks s t
      ∧ PickTold s t (s.lineOfRecord m.index) ∧ t = { s with sched := t.sched, lines := t.lines })
    ∧ (s.now < d → exec (.confirmDelayExpiry k) s = .next s))
  ∧ ∀ (f : FeederNo) (d : Nat) (s : State), (s.feeder f).timer = some d →
      (d ≤ s.now → ((s.feeder f).state = .watching ∨ ((s.feeder f).state = .resting ∧ (s.feeder f).above = true)) →
        ∃ t, exec (.persistenceTimerExpiry f) s = .next t
          ∧ t.feeder f = { s.feeder f with timer := none, selectionPending := true }
          ∧ t.store = { s.store with claims := s.store.claims ++ [⟨.selection f, s.moment + 1⟩] }
          ∧ (∀ g, g ≠ f → t.feeder g = s.feeder g)
          ∧ t = { s with feeders := t.feeders, store := t.store, moment := s.moment + 1 })
      ∧ (d ≤ s.now → (s.feeder f).state = .resting → (s.feeder f).above = false →
        ∃ t, exec (.persistenceTimerExpiry f) s = .next t
          ∧ t.feeder f = { s.feeder f with state := .calm, timer := none, selectionPending := false }
          ∧ (∀ g, g ≠ f → t.feeder g = s.feeder g) ∧ t = { s with feeders := t.feeders })
      ∧ ((s.now < d ∨ (s.feeder f).state = .off ∨ (s.feeder f).state = .calm ∨ (s.feeder f).state = .acting) →
        exec (.persistenceTimerExpiry f) s = .next s)

/-- The survey timer's expiry (R160): it is reloaded from the due value just reached; a RUNNING line with no round starts
one at position 0 and picks, one with a round running keeps its position and raises SURVEY_OVERRUN, and a line that is
not RUNNING is left. -/
def Obligations.SurveyExpiryStartsRounds : Prop :=
  ∀ (d : Nat) (s : State), s.survey.enable = true → s.survey.timer = some d → d ≤ s.now →
    ∃ t, exec .surveyExpiry s = .next t
      ∧ t.survey = { s.survey with timer := some (d + 10 * s.survey.period) }
      ∧ (∀ l, ((s.line l).state = .running → (s.line l).round = none →
            (t.line l).round = some 0 ∧ PickTold s t l
              ∧ t.line l = { s.line l with
                  round := some 0, pickWanted := (t.line l).pickWanted, pickAgain := (t.line l).pickAgain })
          ∧ ((s.line l).state = .running → (s.line l).round ≠ none → t.line l = s.line l ∧ Raised t .surveyOverrun)
          ∧ ((s.line l).state ≠ .running → t.line l = s.line l))
      ∧ ((∀ l, (s.line l).state = .running → (s.line l).round = none) → t.attention = s.attention)
      ∧ t = { s with survey := t.survey, lines := t.lines, attention := t.attention }

/-! ### The lines -/

/-- A line that begins a transaction: SENDING with its attempts, and the characters of its frame on TXD (R131, R127). -/
def sends (x : Line) (txn : Txn) (function : Byte) (payload : List Byte) : Line :=
  { x with
    activity := .sending, out := some txn, attemptsLeft := x.retryLimit + 1, timer := .stopped, reason := none,
    tx := [0xFF, 0xC5] ++ (Frame.body ⟨txn.address, function, txn.sequence, payload⟩).flatMap escapeByte ++ [0xCA],
    rx := .atRest }

/-- A CHECK of a move is due on a line (R68, R69, R137). -/
def checkDueAt (s : State) (l : LineNo) (k : SlotNo) (m : Move) (d : Nat) (b : MoveBinding) : Prop :=
  s.slot k = some m ∧ m.state = .checking ∧ m.closed = false ∧ m.checkDue = some d
    ∧ (s.line l).bindings.find? (fun b => b.slot == k) = some b

/-- A QUEUED move that the scheduler's own state would admit on a line (R61). -/
def admissibleOn (s : State) (l : LineNo) : Prop :=
  ∃ k m, s.slot k = some m ∧ m.state = .queued ∧ s.lineOfRecord m.index = l
    ∧ s.sched.inFlight[(s.record m.index).feeder] < (s.feeder (s.record m.index).feeder).inFlightLimit

/-- A line's pick (R136 to R138): the CHECK due earliest, of the lower slot where two fell due together, is sent; with
none due the line is PICKING and claims an admission when one could be made, else a pick lookup. A line that is not
RUNNING and IDLE with room and an event to pick on does nothing. -/
def Obligations.LinePickSendsOrClaims : Prop :=
  ∀ (l : LineNo) (s : State),
    let ready := (s.line l).state = .running ∧ (s.line l).activity = .idle ∧ (s.line l).receiveHold.length < 2
      ∧ (s.line l).pickWanted = true
    let run := (s.line l).run
    (¬ ready → exec (.linePick l) s = .next s)
    ∧ (∀ k m d b, ready → checkDueAt s l k m d b →
        (∀ k' m' d' b', checkDueAt s l k' m' d' b' → d < d' ∨ (d = d' ∧ k ≤ k')) →
        ∃ t, exec (.linePick l) s = .next t
          ∧ t.line l =
              sends { s.line l with pickWanted := false }
                ⟨.check, m.index, m.generation, b.address, s.bitLength b.rateClass, some k, m.sequence.getD 0⟩ 0x04 []
          ∧ t.slot k = some { m with checkDue := none, attemptsLeft := (s.line l).retryLimit + 1 }
          ∧ OtherSlotsStand k s t ∧ t.sched = { s.sched with slots := t.sched.slots }
          ∧ (∀ x, x ≠ l → t.line x = s.line x)
          ∧ t = { s with lines := t.lines, sched := t.sched, moment := s.moment + 1 })
    ∧ (ready → (∀ k m d b, ¬ checkDueAt s l k m d b) →
        ∃ t, exec (.linePick l) s = .next t
          ∧ t.line l = { s.line l with pickWanted := false, activity := .picking }
          ∧ (admissibleOn s l →
              t.store = { s.store with claims := s.store.claims ++ [⟨.admission l run, s.moment + 1⟩] })
          ∧ (¬ admissibleOn s l →
              t.store = { s.store with claims := s.store.claims ++ [⟨.pickLookup l run, s.moment + 1⟩] })
          ∧ (∀ x, x ≠ l → t.line x = s.line x)
          ∧ t = { s with lines := t.lines, store := t.store, moment := s.moment + 1 })

/-- A QUEUED move meets the tests of R62 on a line, but for the budget. -/
def admittedBut (s : State) (l : LineNo) (m : Move) (p : Phase) : Prop :=
  s.lineOfRecord m.index = l
    ∧ s.sched.inFlight[(s.record m.index).feeder] < (s.feeder (s.record m.index).feeder).inFlightLimit
    ∧ (m.origin = .restore ∨ ∀ d, (s.record m.index).coolDown = some d → d ≤ s.now)
    ∧ (s.record m.index).phase = some p

/-- A QUEUED move that a line's admission scan passes over (R62): on another line, of a feeder at its limit, its cool-down
running, or its record's phase unknown. -/
def passedOver (s : State) (l : LineNo) (m : Move) : Prop :=
  s.lineOfRecord m.index ≠ l
    ∨ (s.feeder (s.record m.index).feeder).inFlightLimit ≤ s.sched.inFlight[(s.record m.index).feeder]
    ∨ (m.origin ≠ .restore ∧ ∃ d, (s.record m.index).coolDown = some d ∧ s.now < d)
    ∨ (s.record m.index).phase = none

/-- The budget test of R62: a RESTORE passes whatever its daily used. -/
def withinBudget (s : State) (m : Move) : Prop :=
  m.origin = .restore ∨ (s.record m.index).dailyUsed < (s.record m.index).dailyBudget

/-- The first move of the queue behind those passed over. -/
def scansTo (s : State) (l : LineNo) (q : List (SlotNo × Move)) (k : SlotNo) (m : Move)
    (rest : List (SlotNo × Move)) : Prop :=
  ∃ front, q = front ++ (k, m) :: rest ∧ ∀ x ∈ front, passedOver s l x.2

/-- The line is still RUNNING in the run an operation was claimed for (R138). -/
def inItsRun (s : State) (l : LineNo) (run : Word32) : Prop := (s.line l).state = .running ∧ (s.line l).run = run

/-- A move has been admitted on a line (R63, R64, R138): OFFERED with the line's next sequence number, counted on its
record and its feeder, and sent as a MOVE; closed at once with its LOST end claimed where the line was halted
meanwhile. A record with no rate class sends at entry 7 (the model's choice, log 28). -/
def AdmittedAs (s t : State) (l : LineNo) (run : Word32) (k : SlotNo) (m : Move) (p : Phase) : Prop :=
  let r := s.record m.index
  let sequence := if s.sched.lineSequence[l] = 255 then 1 else s.sched.lineSequence[l] + 1
  let offered : Move :=
    { m with
      fromPhase := some p, sequence := some sequence, resolve := false,
      attemptsLeft := (s.line l).retryLimit + 1, state := .offered }
  t.record m.index = { r with dailyUsed := min 15 (r.dailyUsed + 1) }
    ∧ t.sched = { s.sched with
        slots := t.sched.slots, lineSequence := s.sched.lineSequence.set l sequence,
        inFlight := s.sched.inFlight.set r.feeder (s.sched.inFlight[r.feeder] + 1) }
    ∧ OutsideStands s t
    ∧ (inItsRun s l run →
        t.slot k = some offered
        ∧ t.line l =
            sends { s.line l with bindings := (s.line l).bindings ++ [⟨k, r.unitAddress, r.sendClass⟩] }
              ⟨.move, m.index, m.generation, r.unitAddress, s.bitLength r.sendClass, some k, sequence⟩ 0x03
              [byteOf p.code, byteOf m.toPhase.code, boolByte (m.origin == .restore)]
        ∧ ∀ x, x ≠ l → t.line x = s.line x)
    ∧ (¬ inItsRun s l run →
        t.slot k = some { offered with closed := true, confirmDue := none, checkDue := none }
        ∧ Claimed t (.lineStopLost k ⟨m.index, m.generation⟩ sequence) ∧ t.lines = s.lines)

/-- A move with its budget spent has ended at admission (R63). -/
def BudgetEnded (s t : State) (k : SlotNo) (m : Move) (stamp : Word32) : Prop :=
  let r := s.record m.index
  t.slot k = none
    ∧ t.record m.index =
        { r with
          move := none, target := none, lastMove := some ⟨.budgetSpent, m.origin, stamp⟩,
          notices := { r.notices with moveFailed := true } }
    ∧ Raised t .moveFailed ∧ EndTold s t m .budgetSpent
    ∧ (r.target ≠ none → ParkedFor s t m.index 0x05 .moveFailed (fun _ => [0, 0, 9]))

/-- The hunt a pick lookup finds on a line: the lowest PROVISIONAL record with its hunt due reached (R138). -/
def huntFound (s : State) (l : LineNo) (i : RecIdx) : Prop :=
  let due (j : RecIdx) := (s.record j).state = .provisional ∧ s.lineOfRecord j = l
    ∧ ∃ d, (s.record j).huntDue = some d ∧ d ≤ s.now
  due i ∧ ∀ j, j < i → ¬ due j

/-- A record a survey round of a line polls from a position on (R140). -/
def polledFrom (s : State) (l : LineNo) (position : Nat) (i : RecIdx) : Prop :=
  position ≤ i.val ∧ ((s.record i).state = .active ∨ (s.record i).state = .retiring) ∧ s.lineOfRecord i = l

/-- What the hunts and polls of a line's pick come to (R138, R140), where some records and no more than the line and what
`rest` says have changed before: a hunt due is sent as a SUMMON at entry 7's bit length
with its hunt due removed, or ends uncounted when the line was halted meanwhile; else the round's next record is polled
and the position moves past it; else the round, if any, ends and the line is IDLE, picking once more when an event came
meanwhile; the mark of such an event stays where a SUMMON or a POLL is sent (the model's choice, log 30), and a record
with no rate class is polled at entry 7 (log 28). A hunt due is tested, and the round position read, at the operation's end
(the model's choice, log 43, log 46). With no hunt and the line halted nothing happens. -/
def looksUpAfter (c : Instr) (l : LineNo) (run : Word32) (s : State) (stands : RecIdx → Prop) (rest : State → Prop) :
    Prop :=
  let runs := inItsRun s l run
  let idle (x : Line) : Line :=
    if x.pickAgain then { x with activity := .idle, pickAgain := false, pickWanted := true }
    else { x with activity := .idle }
  let frame (t : State) := rest t ∧ OutsideStands s t ∧ ∀ x, x ≠ l → t.line x = s.line x
  let recordsStand (t : State) := ∀ j, stands j → t.record j = s.record j
  (∀ i, huntFound s l i →
    ∃ t, exec c s = .next t ∧ t.record i = { s.record i with huntDue := none }
      ∧ (∀ j, j ≠ i → stands j → t.record j = s.record j) ∧ frame t
      ∧ (runs → t.line l =
          sends (s.line l)
            ⟨.summon, i, (s.record i).generation, (s.record i).unitAddress, s.bitLength 7, none, 0⟩ 0x01 [])
      ∧ (¬ runs → t.line l = s.line l ∧ Claimed t (.uncountedHunt ⟨i, (s.record i).generation⟩)))
  ∧ (∀ n i, (∀ j, ¬ huntFound s l j) → runs → (s.line l).round = some n → polledFrom s l n i →
      (∀ j, j < i → ¬ polledFrom s l n j) →
    ∃ t, exec c s = .next t ∧ recordsStand t ∧ frame t
      ∧ t.line l =
          sends { s.line l with round := some (i.val + 1) }
            ⟨.poll, i, (s.record i).generation, (s.record i).unitAddress, s.bitLength (s.record i).sendClass,
              none, 0⟩ 0x02 [])
  ∧ (∀ n, (∀ j, ¬ huntFound s l j) → runs → (s.line l).round = some n → (∀ j, ¬ polledFrom s l n j) →
    ∃ t, exec c s = .next t ∧ recordsStand t ∧ frame t ∧ t.line l = idle { s.line l with round := none })
  ∧ ((∀ j, ¬ huntFound s l j) → runs → (s.line l).round = none →
    ∃ t, exec c s = .next t ∧ recordsStand t ∧ frame t ∧ t.line l = idle (s.line l))
  ∧ ((∀ j, ¬ huntFound s l j) → ¬ runs →
    ∃ t, exec c s = .next t ∧ recordsStand t ∧ frame t ∧ t.lines = s.lines)

/-- The hunts and polls of a line's pick, with nothing else changed (R138, R140). -/
def looksUp (c : Instr) (l : LineNo) (run : Word32) (s : State) : Prop :=
  looksUpAfter c l run s (fun _ => True) (fun t => t.sched = s.sched ∧ t.feeders = s.feeders ∧ t.batch = s.batch)

/-- A QUEUED move that the scan ends: it meets the tests of R62 but for the budget, which is spent (R63). -/
def spentOn (s : State) (l : LineNo) (m : Move) : Prop := (∃ p, admittedBut s l m p) ∧ ¬ withinBudget s m

/-- The moves with a spent budget that a scan met have ended, and the blocks that enqueued them are told (R63, R76, R95,
R110). -/
def SpentEnded (s t : State) (gone : SlotNo → Move → Prop) (stamp : Word32) : Prop :=
  QueuedEnded s t gone .budgetSpent stamp ∧ BatchToldOf s t gone .budgetSpent
    ∧ (∀ k m, s.slot k = some m → gone k m → BalancerTold s t m) ∧ FeederSettingsStand s t

/-- The admission (R61 to R64, R138): the move queue is the QUEUED slots by priority and entry order (R56). Moves on
other lines, of feeders at their limit, in their cool-down or of an unknown phase are passed over; the first that meets
every test is admitted; each with its budget spent ends BUDGET_SPENT, and the scan goes on behind it, to a move it
admits or to the end of the queue. With no move admitted the hunts and polls follow in the same operation, whatever moves
have ended. The mark of an event that came meanwhile stays where the operation returns with a transaction (the model's
choice, log 30); a record with no rate class sends at entry 7 (log 28); cool-downs are tested at the operation's end (the
model's choice, log 43), the round position is read there (log 46), and a timer runs from there (log 13). An admission of an earlier run has no effect. -/
def Obligations.AdmissionOffersTheHead : Prop :=
  (∀ s : State, (∀ k m, (k, m) ∈ s.moveQueue ↔ s.slot k = some m ∧ m.state = .queued)
    ∧ s.moveQueue.Pairwise (fun x y =>
        y.2.priority < x.2.priority ∨ (x.2.priority = y.2.priority ∧ x.2.entryOrder ≤ y.2.entryOrder)))
  ∧ ∀ (part : Part) (l : LineNo) (run : Word32) (s u : State) (v : Service),
    opened part (fun c => match c with | .admission x _ => x == l | _ => false) s = some (v, u) →
    v.work = .claim (.admission l run) →
    (v.passed = false → exec (.admission part l) s = .next u)
    ∧ (v.passed = true → (∀ x ∈ u.moveQueue, passedOver u l x.2) → looksUp (.admission part l) l run s)
    ∧ (∀ front k m rest p, v.passed = true → MoveTableLaw s → u.moveQueue = front ++ (k, m) :: rest →
        let gone (j : SlotNo) (y : Move) := (j, y) ∈ front ∧ spentOn u l y
        (∀ x ∈ front, passedOver u l x.2 ∨ spentOn u l x.2) → admittedBut u l m p → withinBudget s m →
        (∀ x, ∀ b ∈ (s.line x).bindings, ∀ y, ¬ gone b.slot y) →
        ∃ t, exec (.admission part l) s = .next t ∧ SpentEnded s t gone v.stamp ∧ AdmittedAs s t l run k m p
          ∧ (∀ i, i ≠ m.index → (∀ j y, gone j y → y.index ≠ i) → t.record i = s.record i)
          ∧ ∀ j, j ≠ k → (∀ y, ¬ gone j y) → t.slot j = s.slot j)
    ∧ (let gone (j : SlotNo) (y : Move) := (j, y) ∈ u.moveQueue ∧ spentOn u l y
      v.passed = true → MoveTableLaw s → (∀ x ∈ u.moveQueue, passedOver u l x.2 ∨ spentOn u l x.2) →
        (∀ x, ∀ b ∈ (s.line x).bindings, ∀ y, ¬ gone b.slot y) →
        looksUpAfter (.admission part l) l run s (fun i => ∀ j y, gone j y → y.index ≠ i)
          (fun t => SpentEnded s t gone v.stamp ∧ t.sched = { s.sched with slots := t.sched.slots }
            ∧ ∀ j, (∀ y, ¬ gone j y) → t.slot j = s.slot j))
    ∧ ∀ k m rest p, v.passed = true → scansTo u l u.moveQueue k m rest → admittedBut u l m p →
        (withinBudget s m →
          ∃ t, exec (.admission part l) s = .next t ∧ AdmittedAs s t l run k m p
            ∧ OtherRecordsStand m.index s t ∧ OtherSlotsStand k s t ∧ t.batch = s.batch ∧ t.feeders = s.feeders)
        ∧ (¬ withinBudget s m → MoveTableLaw s → (∀ x, ∀ b ∈ (s.line x).bindings, b.slot ≠ k) →
            ((∀ x ∈ rest, passedOver u l x.2) →
              ∃ t, exec (.admission part l) s = .next t ∧ BudgetEnded s t k m v.stamp ∧ OtherSlotsStand k s t
                ∧ t.sched.inFlight = s.sched.inFlight)
            ∧ ∀ k' m' rest' p', scansTo u l rest k' m' rest' → admittedBut u l m' p' → withinBudget s m' →
              ∃ t, exec (.admission part l) s = .next t ∧ BudgetEnded s t k m v.stamp
                ∧ AdmittedAs s t l run k' m' p'
                ∧ (∀ i, i ≠ m.index → i ≠ m'.index → t.record i = s.record i)
                ∧ ∀ j, j ≠ k → j ≠ k' → t.slot j = s.slot j)

/-- The pick lookup (R138, R140): a hunt due is sent as a SUMMON, else the round's next record is polled, else the line is
IDLE, as `looksUp` says. The mark of an event that came meanwhile stays where a SUMMON or a POLL is sent (the model's
choice, log 30), a record with no rate class is polled at entry 7 (the model's choice, log 28), and a hunt due is tested,
and the round position read, at the operation's end (the model's choice, log 43, log 46). A lookup of an earlier run has no effect. -/
def Obligations.PickLookupHuntsThenPolls : Prop :=
  ∀ (part : Part) (l : LineNo) (run : Word32) (s u : State) (v : Service),
    opened part (fun c => match c with | .pickLookup x _ => x == l | _ => false) s = some (v, u) →
    v.work = .claim (.pickLookup l run) →
    (v.passed = false → exec (.pickLookup part l) s = .next u)
    ∧ (v.passed = true → looksUp (.pickLookup part l) l run s)

/-- An attempt ends with no valid answer (R133, R134): the silence count rises by 1; at the limit the line is SUSPENDED and
LINE_SUSPENDED raised, its moves in flight are closed with their LOST ends claimed, its hunts end uncounted, and the
CONTACTs parked for its records complete LINE_STOPPED (R79, R121); otherwise the frame is sent again
while attempts are left, and at 0 the transaction is exhausted and handed on by its kind: a MOVE becomes CHECKING in
resolve mode where the slot still holds it OFFERED and not closed, and its exhaustion has no effect otherwise (R68). -/
def attemptEnds (c : Instr) (l : LineNo) (t : Txn) (reason : HuntResult) (s : State) : Prop :=
  let x := s.line l
  let h : Handle := ⟨t.index, t.generation⟩
  let offeredAt (k : SlotNo) (m : Move) : Prop := t.slot = some k ∧ s.slot k = some m ∧ m.index = t.index
    ∧ m.generation = t.generation ∧ m.sequence = some t.sequence ∧ m.state = .offered ∧ m.closed = false
  let failed : Line :=
    { x with silence := x.silence + 1, reason := if t.kind = .summon then some reason else x.reason }
  (x.silenceLimit ≤ x.silence + 1 →
    ∃ z, exec c s = .next z ∧ (z.line l).state = .suspended ∧ (z.line l).activity = .idle ∧ (z.line l).out = none
      ∧ (z.line l).receiveHold = [] ∧ (z.line l).round = none ∧ (z.line l).silence = x.silence + 1
      ∧ (z.line l).run = x.run ∧ (z.line l).settings = x.settings ∧ Raised z .lineSuspended
      ∧ (z.line l).bindings = [] ∧ (z.line l).attemptsLeft = 0 ∧ (z.line l).timer = .stopped
      ∧ (t.kind = .summon → Claimed z (.uncountedHunt h))
      ∧ MovesClosed l s z ∧ HuntsAbandoned l s z ∧ HaltLeaves (· = l) s z
      ∧ z.sched = { s.sched with slots := z.sched.slots } ∧ (∀ y, y ≠ l → z.line y = s.line y)
      ∧ (∀ i, s.lineOfRecord i = l → ParkedFor s z i 0x0B .lineStopped (fun _ => []))
      ∧ TableStands s z ∧ z.feeders = s.feeders ∧ z.batch = s.batch ∧ OutsideStands s z)
  ∧ (x.silence + 1 < x.silenceLimit → 0 < x.attemptsLeft →
    ∃ z, exec c s = .next z ∧ z.line l = { failed with activity := .sending, timer := .stopped, rx := .atRest }
      ∧ (∀ y, y ≠ l → z.line y = s.line y) ∧ z = { s with lines := z.lines, moment := s.moment + 1 })
  ∧ (x.silence + 1 < x.silenceLimit → x.attemptsLeft = 0 →
    ∃ z, exec c s = .next z
      ∧ z.line l =
          { failed with
            activity := .idle, out := none, timer := .stopped, rx := .atRest, pickWanted := (z.line l).pickWanted }
      ∧ (x.state = .running → x.receiveHold.length < 2 → (z.line l).pickWanted = true)
      ∧ ((x.state ≠ .running ∨ 2 ≤ x.receiveHold.length) → (z.line l).pickWanted = x.pickWanted)
      ∧ (∀ y, y ≠ l →
          z.line y = { s.line y with pickWanted := (z.line y).pickWanted, pickAgain := (z.line y).pickAgain })
      ∧ (t.kind = .summon →
          z.store = { s.store with claims := s.store.claims ++ [⟨.huntFailure h reason, s.moment + 1⟩] }
            ∧ z.sched = s.sched)
      ∧ (t.kind = .poll → z.store = s.store ∧ z.sched = s.sched)
      ∧ (∀ k, t.kind = .check → t.slot = some k →
          z.store = { s.store with claims := s.store.claims ++ [⟨.checkExhausted k h t.sequence, s.moment + 1⟩] }
            ∧ z.sched = s.sched)
      ∧ (t.kind = .check → t.slot = none → z.store = s.store ∧ z.sched = s.sched)
      ∧ (t.kind = .move → z.store = s.store)
      ∧ (∀ k m, t.kind = .move → offeredAt k m →
          z.slot k = some { m with state := .checking, resolve := true, checkDue := some s.now }
            ∧ OtherSlotsStand k s z ∧ z.sched = { s.sched with slots := z.sched.slots }
            ∧ PickTold s z (s.lineOfRecord m.index))
      ∧ (t.kind = .move → (∀ k m, ¬ offeredAt k m) → z.sched = s.sched ∧ ∀ y, y ≠ l → z.line y = s.line y)
      ∧ TableStands s z ∧ z.feeders = s.feeders ∧ z.batch = s.batch ∧ OutsideStands s z)

/-- The receiver of a transaction as it waits for an answer: measuring in a hunt, reading at the transaction's bit length
otherwise (R131, R144). -/
def waitingFor (t : Txn) : Receiver :=
  if t.kind = .summon then ⟨.measuring, 0, none, none, false, 0⟩ else ⟨.reading, t.bitLength, none, none, false, 0⟩

/-- A frame is discarded (R129, R131): in a hunt the attempt ends BAD_FRAME (R146), otherwise the line waits anew with the
full turnaround time. -/
def discards (c : Instr) (l : LineNo) (t : Txn) (s : State) : Prop :=
  (t.kind = .summon → attemptEnds c l t .badFrame s)
  ∧ (t.kind ≠ .summon → ∃ z, exec c s = .next z
      ∧ z.line l = { s.line l with timer := .running (s.line l).window, rx := waitingFor t }
      ∧ (∀ y, y ≠ l → z.line y = s.line y) ∧ z = { s with lines := z.lines })

/-- While a line sends, TXD carries each character as a low start bit, the eight data bits least significant first and a
high stop bit, every bit of the transaction's bit length and nothing between (R125). The end of the sending opens the
answer window with the turnaround timer and takes one attempt (R131, R144), at the slot too where it still holds the
transaction's move, and the Move Table stands where it does not; the turnaround timeout, a start bit past the
last class and, in a hunt, a frame gap end the attempt (R133, R145, R146); outside a hunt a frame gap discards the frame
and the line waits anew (R129, R131). An attempt that brings the silence count to the limit suspends the line, which closes
its moves in flight and ends its hunts uncounted (R134, R121, R79). A start bit at the clock the timer runs out at comes too
late (the model's choice, log 45). -/
def Obligations.AttemptsOpenAndEnd : Prop :=
  ∀ (l : LineNo) (t : Txn) (s : State), (s.line l).out = some t →
    let x := s.line l
    let held (k : SlotNo) (m : Move) : Prop := t.slot = some k ∧ s.slot k = some m ∧ m.index = t.index
      ∧ m.generation = t.generation ∧ m.sequence = some t.sequence
    (x.activity = .sending → x.txd.length = 10 * x.tx.length ∧ ∀ n c, x.tx[n]? = some c →
        x.txd[10 * n]? = some (false, t.bitLength)
        ∧ (∀ b, b < 8 → x.txd[10 * n + 1 + b]? = some (c.getLsbD b, t.bitLength))
        ∧ x.txd[10 * n + 9]? = some (true, t.bitLength))
    ∧ (x.activity ≠ .sending → x.txd = [])
    ∧ (x.activity = .sending →
      ∃ z, exec (.frameSent l) s = .next z
        ∧ z.line l =
            { x with
              activity := .listening, attemptsLeft := x.attemptsLeft - 1, window := x.turnaround * 20000,
              timer := .running (x.turnaround * 20000), rx := waitingFor t }
        ∧ (∀ k m, held k m →
            z.slot k = some { m with attemptsLeft := m.attemptsLeft - 1 } ∧ OtherSlotsStand k s z
              ∧ z.sched = { s.sched with slots := z.sched.slots })
        ∧ ((∀ k m, ¬ held k m) → z.sched = s.sched)
        ∧ (∀ y, y ≠ l → z.line y = s.line y) ∧ z = { s with lines := z.lines, sched := z.sched })
    ∧ (∀ n, x.activity = .listening → x.timer = .running n → attemptEnds (.turnaroundTimeout l) l t .silent s)
    ∧ (∀ n wait, x.activity = .listening → x.rx.mode = .measuring → x.timer = .running n → wait < n →
        attemptEnds (.startBitUnclassified l wait) l t .endOfTable s)
    ∧ (x.activity = .listening → x.rx.busy = true → discards (.frameGapTimeout l) l t s)

/-- The falling edge that begins a character comes in time for a reading receiver (R126, R129, R131). -/
def edgeInTime (x : Line) (wait : Nat) : Prop :=
  x.activity = .listening ∧ x.rx.mode = .reading
    ∧ (x.rx.busy = true → x.rx.gap + wait ≤ 40 * x.rx.bitLength)
    ∧ (x.rx.busy = false → ∃ n, x.timer = .running n ∧ wait < n)

/-- A character taken by a reading receiver (R126): the falling edge in time, the pair low at half a bit length. -/
def takenAt (x : Line) (wait : Nat) (wave : Wave) : Prop :=
  edgeInTime x wait ∧ lowAt wave (x.rx.bitLength / 2) = true

/-- The line after a character that leaves the receiver with a frame being assembled, or with none. -/
def heardAs (x : Line) (a : Option Assembly) : Line :=
  { x with timer := x.timer.hold, rx := { x.rx with mode := .reading, frame := a, busy := true, gap := 0 } }

/-- The receiver (R126, R129 to R133, R144 to R146). A start mark begins a frame, another character inside one is collected
(one with a framing error marks the frame bad, a test made at the end mark: log 12), one outside it is only heard; the 32nd
byte (log 39) or an end mark that closes no good frame discards it; one that closes a good frame from the outstanding
address with an expected answer, of the transaction's sequence number for MOVE and CHECK, is a valid answer: the silence
count is 0, the answer held with its binding, the line IDLE with a pick to make where its hold still has room (R136), and
attempts left stays as it was (the model's choice, log 33). A frame from another address is ignored, one of another function, length or sequence number ends the attempt. A
pair high again at half a bit length is a false start. In measuring mode a period below the false-start threshold is
ignored, and a longer one takes the class of the lowest entry at or above it; the classified character is then read at
that class's bit length with no half-bit check. An edge at the clock the turnaround timer runs out at comes too late (the
model's choice, log 45). -/
def Obligations.ReceiverTakesFrames : Prop :=
  ∀ (l : LineNo) (wait : Nat) (s : State) (t : Txn), (s.line l).out = some t →
    let x := s.line l
    let becomes (c : Instr) (y : Line) : Prop := ∃ z, exec c s = .next z ∧ (∀ y, y ≠ l → z.line y = s.line y)
      ∧ z = { s with lines := z.lines } ∧ z.line l = y
    (∀ wave c err, waveOk wave = true → takenAt x wait wave → lowAt wave (samplePoint x.rx.bitLength 9) = err →
        sampleByte x.rx.bitLength wave = c →
        let character := Instr.characterReceived l wait wave
        let frame := Instr.frameReceived l wait wave
        (c = 0xC5 → err = false → becomes character (heardAs x (some ⟨[], false, false⟩)))
        ∧ (x.rx.frame = none → ¬ (c = 0xC5 ∧ err = false) → becomes character (heardAs x none))
        ∧ (∀ a, x.rx.frame = some a → (err = true ∨ (c ≠ 0xC5 ∧ c ≠ 0xCA)) →
            ((a.add c err).bytes.length ≤ 31 → becomes character (heardAs x (some (a.add c err))))
            ∧ (31 < (a.add c err).bytes.length → discards character l t s))
        ∧ (∀ a, c = 0xCA → err = false → x.rx.frame = some a → a.close = none → discards frame l t s)
        ∧ ∀ a f, c = 0xCA → err = false → x.rx.frame = some a → a.close = some f →
            let expected := f.address = t.address ∧ expectedAnswer t.kind f.function f.payload.length = true
              ∧ (t.slot = none ∨ f.sequence = t.sequence)
            (expected →
              ∃ z, exec frame s = .next z ∧ (∀ y, y ≠ l → z.line y = s.line y)
                ∧ z = { s with lines := z.lines, moment := s.moment + 1 }
                ∧ z.line l = { x with
                    activity := .idle, out := none, timer := .stopped, rx := .atRest, silence := 0
                    receiveHold := x.receiveHold ++
                      [⟨f.function, f.sequence, f.payload, t, x.rx.rateClass, s.moment + 1⟩]
                    pickWanted := (z.line l).pickWanted }
                ∧ (x.state = .running → x.receiveHold = [] → (z.line l).pickWanted = true)
                ∧ ((x.state ≠ .running ∨ x.receiveHold ≠ []) → (z.line l).pickWanted = x.pickWanted))
            ∧ (f.address ≠ t.address → becomes frame { x with timer := .running x.window, rx := waitingFor t })
            ∧ (f.address = t.address → ¬ expected → attemptEnds frame l t .badFrame s))
    ∧ (∀ wave, waveOk wave = true → edgeInTime x wait → lowAt wave (x.rx.bitLength / 2) = false →
        becomes (.characterReceived l wait wave)
          { x with
            timer := (match x.timer with | .running n => .running (n - wait) | other => other)
            rx := { x.rx with gap := if x.rx.busy = true then x.rx.gap + wait else x.rx.gap } })
    ∧ (∀ wave c, waveOk wave = true → x.activity = .listening → x.rx.mode = .lead → x.rx.frame = none →
        sampleByte x.rx.bitLength wave = c →
        let character := Instr.characterReceived l wait wave
        let err := lowAt wave (samplePoint x.rx.bitLength 9)
        (err = true → discards character l t s)
        ∧ (err = false → c = 0xC5 → becomes character (heardAs x (some ⟨[], false, false⟩)))
        ∧ (err = false → c ≠ 0xC5 → becomes character (heardAs x none)))
    ∧ ∀ n period, x.activity = .listening → x.rx.mode = .measuring → x.timer = .running n → wait < n → 0 < period →
        period ≤ s.maxStart 7 →
        (period < s.bitLength 0 / 2 →
          becomes (.huntStartBitMeasured l wait period) { x with timer := .running (n - wait) })
        ∧ ∀ c : RateNo, s.bitLength 0 / 2 ≤ period → period ≤ s.maxStart c → (∀ d, d < c → s.maxStart d < period) →
          becomes (.huntStartBitMeasured l wait period)
            { x with
              timer := .held (n - wait)
              rx := { x.rx with mode := .lead, bitLength := s.bitLength c, rateClass := some c } }

/-- A frame as sent is read back (R127 to R130): the characters between its marks, unescaped one by one, close to the same
address, function, sequence and payload, and pass the length tests and the CRC. -/
def Obligations.FrameIsReadBackAsSent : Prop :=
  ∀ f : Frame, f.payload.length ≤ 24 →
    ∃ body, f.chars = [0xFF, 0xC5] ++ body ++ [0xCA] ∧ (∀ c ∈ body, c ≠ 0xC5 ∧ c ≠ 0xCA)
      ∧ (body.foldl (fun a c => a.add c false) (⟨[], false, false⟩ : Assembly)).close = some f

/-! ### Answers -/

/-- The record with an answer's figures and stamps: one current for SINGLE, three for THREE, each clamped to 100.0 A; the
operation count; last report time, a new deadline and stale cleared (R6, R15). -/
def refreshed (r : Record) (payload : List Byte) (stamp : Word32) (now : Nat) : Record :=
  { r with
    current := if r.kind = .single then ⟨(payFigures payload).currents.a, 0, 0⟩ else (payFigures payload).currents
    opCount := (payFigures payload).opCount
    lastReport := some stamp
    deadlineDue := some (now + 10 * r.deadlineInterval)
    stale := false }

/-- The fault field after a code has landed (R19). -/
def faultAfter (f : Option FaultField) (code : Byte) (stamp : Word32) : Option FaultField :=
  if code = 0 then f
  else
    match f with
    | none => some ⟨code, stamp, false⟩
    | some x => if x.code = code then some x else some { x with second := true }

/-- A fault code lands and stores or marks a fault (R19). -/
def lands (f : Option FaultField) (code : Byte) : Prop := code ≠ 0 ∧ ∀ x, f = some x → x.code ≠ code

/-- The record after a counted hunt failure (R149): its result and count, a new hunt due, and at the third the NO_CONTACT
notice with UNIT_EVENT. -/
def huntFailedRecord (r : Record) (reason : HuntResult) (again : Nat) : Record :=
  { r with
    lastHunt := some reason
    huntFailures := r.huntFailures + 1
    huntDue := if r.huntFailures < 2 then some again else none
    notices := if r.huntFailures < 2 then r.notices else { r.notices with noContact := true } }

/-- A counted hunt failure of a hunted record has taken effect, and a parked CONTACT completes HUNT_FAILED with the reason
and the failures (R149, R151). -/
def HuntFailed (i : RecIdx) (s t : State) (reason : HuntResult) : Prop :=
  t.record i =
      huntFailedRecord (s.record i) reason (s.now + 10 * (s.line (s.lineOfRecord i)).huntInterval)
    ∧ (2 ≤ (s.record i).huntFailures → Raised t .unitEvent)
    ∧ ParkedFor s t i 0x0B .huntFailed (fun _ => [byteOf reason.code, byteOf ((s.record i).huntFailures + 1)])

/-- A PRESENT (R8, R147, R148): for a hunted record of its kind it makes the record ACTIVE with the class its start bit was
given, the figures, the phase of a SINGLE record and the fault landed, and a parked CONTACT completes OK; of the wrong
kind it counts a hunt failure KIND_MISMATCH; otherwise it is discarded. The deadline and a new hunt due count from the
elapsed count at the operation's end (the model's choice, log 13). -/
def Obligations.PresentTakesIntoService : Prop :=
  ∀ (part : Part) (h : Held) (stamp : Word32) (s u : State),
    openedAnswer part 0x81 s = some (h, stamp, u) →
    let i := h.binding.index
    let r := s.record i
    let hunted := r.generation = h.binding.generation ∧ r.state = .provisional ∧ h.binding.kind = .summon
    let fits := (r.kind = .single ∧ payByte h.payload 0 = 0 ∧ h.payload.length ≠ 11)
      ∨ (r.kind = .three ∧ payByte h.payload 0 = 1 ∧ h.payload.length = 11)
    let code := (payFigures h.payload).fault
    (¬ hunted → exec (.presentProcessing part) s = .next u)
    ∧ (hunted → fits → r.move = none →
        ∃ t, exec (.presentProcessing part) s = .next t
          ∧ t.record i =
              { refreshed r h.payload stamp s.now with
                state := .active, rateClass := h.rateClass, lastHunt := some .ok, huntFailures := 0, huntDue := none,
                phase := if r.kind = .single then phaseOf (payByte h.payload 1).toNat else r.phase,
                fault := faultAfter r.fault code stamp }
          ∧ (lands r.fault code → Raised t .unitFault)
          ∧ ParkedFor s t i 0x0B .ok (fun _ => [byteOf (codeOr h.rateClass (fun c => c.val))])
          ∧ OnlyRecord i u t)
    ∧ (hunted → ¬ fits →
        ∃ t, exec (.presentProcessing part) s = .next t ∧ HuntFailed i s t .kindMismatch ∧ OnlyRecord i u t)

/-! ### The ends of moves -/

/-- The record after its move ended with a result, by the table of R74; a fault landing of UNSUPPLIED included (R71). -/
def endedRecord (r : Record) (m : Move) (res : MoveResult) (stamp : Word32) (coolUntil : Nat) : Record :=
  { r with
    move := none
    lastMove := some ⟨res, m.origin, stamp⟩
    phase :=
      match res with
      | .done | .already => some m.toPhase
      | .unsupplied | .lost => none
      | .declined | .noAnswer | .restoredBack | .aborted | .budgetSpent => r.phase
    coolDown :=
      match res with
      | .done | .restoredBack | .unsupplied | .lost => some coolUntil
      | .already | .declined | .noAnswer | .aborted | .budgetSpent => r.coolDown
    target := none
    notices :=
      match res with
      | .done | .already | .aborted => r.notices
      | .declined | .noAnswer | .restoredBack | .unsupplied | .lost | .budgetSpent => { r.notices with moveFailed := true }
    fault :=
      match res with
      | .unsupplied => faultAfter r.fault 255 stamp
      | .done | .already | .declined | .noAnswer | .restoredBack | .lost | .aborted | .budgetSpent => r.fault }

/-- When a cool-down that starts now passes: the present elapsed count and the cool-down of the record's feeder (R74). -/
def coolsUntil (s : State) (i : RecIdx) : Nat := s.now + 10 * (s.feeder (s.record i).feeder).coolDown

/-- A record's target reached: a parked WAIT completes OK with the result and slot it took when accepted (R41, R84). -/
def WaitDone (i : RecIdx) (s t : State) : Prop := ParkedFor s t i 0x05 .ok (fun p => [p.result, p.slot])

/-- A move's end that removes the target completes a parked WAIT: OK after DONE or ALREADY, MOVE_FAILED with the result
otherwise (R41). -/
def WaitTold (i : RecIdx) (s t : State) (res : MoveResult) : Prop :=
  (s.record i).target ≠ none →
    if res = .done ∨ res = .already then WaitDone i s t
    else ParkedFor s t i 0x05 .moveFailed (fun _ => [0, 0, byteOf res.code])

/-- A parked WAIT of a record whose target is kept stays as it was (R41). -/
def WaitStays (i : RecIdx) (s t : State) : Prop :=
  ∀ n p, Awaits s n p 0x05 (some ⟨i, (s.record i).generation⟩) → t.park n = some p

/-- A RETIRING record has become VACANT, and its parked RETIRE completes OK with the result RETIRING (R10, R11, R51). -/
def Vacated (i : RecIdx) (s t : State) : Prop :=
  t.record i = Record.vacant (s.record i).generation ∧ ParkedFor s t i 0x0C .ok (fun _ => [9])

/-- The in-flight counts after a move of a record ended: one less for its feeder where the move was in flight (R54). -/
def countsLeft (s : State) (i : RecIdx) (m : Move) : Vector Nat 8 :=
  let f := (s.record i).feeder
  if m.state = .queued then s.sched.inFlight else s.sched.inFlight.set f (s.sched.inFlight[f] - 1)

/-- What the end of a record's move tells: the block that enqueued it, MOVE_FAILED for the results that fail, and the line
where the move was in flight (R61, R74, R76). Every other record stands. -/
def EndLeaves (i : RecIdx) (s t : State) (m : Move) (res : MoveResult) : Prop :=
  OtherRecordsStand i s t ∧ EndTold s t m res
    ∧ ((res ≠ .done ∧ res ≠ .already ∧ res ≠ .aborted) → Raised t .moveFailed)
    ∧ (m.state ≠ .queued → PickTold s t (s.lineOfRecord i)) ∧ FeederSettingsStand s t ∧ OutsideStands s t

/-- A move has ended and its slot is left free, which claims slot-free service when the waiting list is not empty (R58,
R73). -/
def SlotLeft (i : RecIdx) (k : SlotNo) (s t : State) (m : Move) (res : MoveResult) : Prop :=
  EndLeaves i s t m res ∧ t.slot k = none ∧ OtherSlotsStand k s t
    ∧ t.sched = { s.sched with slots := t.sched.slots, inFlight := countsLeft s i m }
    ∧ (s.sched.waitingList ≠ [] → Claimed t .slotFree)

/-- The lowest slot that is free once a slot is freed (R52, R57; of R78's and R52's words the model follows R52's, log
20). -/
def LowestFreeBut (s : State) (k k' : SlotNo) : Prop :=
  (k' = k ∨ s.slot k' = none) ∧ ∀ j : SlotNo, j < k' → j ≠ k ∧ s.slot j ≠ none

/-- A move has ended and another of the same record is enqueued in the same operation, in the lowest slot then free (R78,
R82). -/
def FollowedBy (i : RecIdx) (k k' : SlotNo) (s t : State) (m : Move) (res : MoveResult) (next : Move) : Prop :=
  EndLeaves i s t m res ∧ t.slot k' = some next ∧ (k' ≠ k → t.slot k = none)
    ∧ (∀ j, j ≠ k → j ≠ k' → t.slot j = s.slot j)
    ∧ t.sched =
        { s.sched with
          slots := t.sched.slots, inFlight := countsLeft s i m, entryCount := s.sched.entryCount + 1 }

/-- A move has ended and its record, left waiting while its index stands in the waiting list, keeps its entry there with the
new priority and is not enqueued, though its slot is free (R57, R58). -/
def ListedAfter (i : RecIdx) (k : SlotNo) (s t : State) (m : Move) (res : MoveResult) (priority : Nat) : Prop :=
  EndLeaves i s t m res ∧ t.slot k = none ∧ OtherSlotsStand k s t
    ∧ t.sched =
        { s.sched with
          slots := t.sched.slots, inFlight := countsLeft s i m, waitingList := t.sched.waitingList }
    ∧ Enlisted i priority s t ∧ Claimed t .slotFree

/-- A move in flight ends with a result, the record standing as `r` when it ends: of an ACTIVE record the record by R74 and
its parked WAIT completed; of a RETIRING one the record VACANT (R11); its slot free. -/
def MoveEnds (i : RecIdx) (k : SlotNo) (s t : State) (m : Move) (r : Record) (res : MoveResult) (stamp : Word32) : Prop :=
  ((s.record i).state = .active →
      t.record i = endedRecord r m res stamp (coolsUntil s i) ∧ WaitTold i s t res
        ∧ (res = .unsupplied → lands r.fault 255 → Raised t .unitFault))
    ∧ ((s.record i).state = .retiring → Vacated i s t) ∧ SlotLeft i k s t m res

/-! ### Reports, acceptances and outcomes -/

/-- A REPORT (R80 to R84, R163 to R166): discarded unless its binding and form fit; it refreshes the record and lands the
fault, which ends a QUEUED move ABORTED with the target kept (R19). Of a SINGLE record without the restarted flag it
takes the phase where no move is in flight, with DRIFTED on a change between known phases, and leaves it to the OUTCOME
where one is. With the flag it takes the phase reported and RESTARTED, ends a move in flight LOST with that phase kept,
and, where the tests of R82 hold, sets a RESTORE target: a QUEUED move is re-placed to it, and otherwise a move is
enqueued in the lowest slot then free (the model's choice, log 20) or the record has its one entry in the waiting list,
in its place with the new priority (R57). A RESTORE target of an earlier restart stands where the report does not restore (the
model's choice, log 44). A target that the phase then equals is removed, ending a QUEUED move ALREADY, and a parked WAIT
completes OK (R84, R41). A slot freed and filled again is told to a stalled wave (the model's choice, log 31); the deadline
and the cool-down count from the elapsed count at the operation's end (the model's choice, log 13), and a change of the
origin alone is no event for the pick (log 37). A QUEUED move's resolve mode and attempts left are the model's choice (log
47). -/
def Obligations.ReportRefreshesTheRecord : Prop :=
  ∀ (part : Part) (h : Held) (stamp : Word32) (s u : State),
    openedAnswer part 0x82 s = some (h, stamp, u) →
    let i := h.binding.index
    let r := s.record i
    let fits := r.generation = h.binding.generation ∧ (r.state = .active ∨ r.state = .retiring)
      ∧ (h.payload.length = 11 ↔ r.kind = .three)
    let landed := lands r.fault (payFigures h.payload).fault
    let fault := faultAfter r.fault (payFigures h.payload).fault stamp
    let restarted := (payByte h.payload 0).getLsbD 0
    let x := phaseOf (payByte h.payload 1).toNat
    let base : Record := { refreshed r h.payload stamp s.now with fault := fault }
    let back : Record := { base with phase := x, notices := { r.notices with restarted := true } }
    let seen : Record :=
      if restarted then back
      else
        { base with
          phase := if x = none then r.phase else x
          notices := { r.notices with
            drifted := r.notices.drifted || (r.phase.isSome && x.isSome && r.phase != x) } }
    let reached := r.target.any (fun tg => seen.phase = some tg.phase)
    let restores (y : Phase) := restarted = true ∧ r.phase = some y ∧ x ≠ some y ∧ r.state = .active
      ∧ r.autoRestore = true ∧ r.hold = none ∧ fault = none ∧ r.allowed.get y = true
    let raises (t : State) := (landed → Raised t .unitFault) ∧ (restarted = true → Raised t .unitEvent)
    let drifts (t : State) := r.phase ≠ none → x ≠ none → r.phase ≠ x → Raised t .unitEvent
    let superseded (t : State) := ParkedFor s t i 0x05 .superseded (fun _ => [])
    let single (t : State) := exec (.reportProcessing part) s = .next t ∧ raises t
    (¬ fits → exec (.reportProcessing part) s = .next u)
    ∧ (fits → r.move = none → r.kind = .three →
        ∃ t, exec (.reportProcessing part) s = .next t ∧ raises t
          ∧ t.record i =
              { base with
                notices := { r.notices with restarted := r.notices.restarted || restarted }
                target := (t.record i).target }
          ∧ (r.target = none → (t.record i).target = none) ∧ OnlyRecord i u t)
    ∧ (fits → r.kind = .single → (∀ y, ¬ restores y) →
        (r.move = none →
          ∃ t, single t ∧ drifts t ∧ t.record i = { seen with target := if reached then none else r.target }
            ∧ (reached = true → WaitDone i s t) ∧ OnlyRecord i u t)
        ∧ (∀ k m, r.state = .active → QueuedAt s i k m → ¬ landed → reached = false →
          ∃ t, single t ∧ drifts t ∧ t.record i = seen ∧ t.slot k = some m ∧ OnlyRecord i u t
            ∧ (r.phase = none → seen.phase ≠ none → PickTold s t (s.lineOfRecord i)))
        ∧ (∀ k m, r.state = .active → QueuedAt s i k m → ¬ landed → reached = true →
          ∃ t, single t ∧ drifts t ∧ t.record i = endedRecord seen m .already stamp 0 ∧ WaitDone i s t
            ∧ SlotLeft i k s t m .already)
        ∧ (∀ k m, r.state = .active → QueuedAt s i k m → landed →
          ∃ t, single t ∧ drifts t
            ∧ t.record i =
                { seen with
                  move := none, lastMove := some ⟨.aborted, m.origin, stamp⟩
                  target := if reached then none else r.target }
            ∧ (reached = true → WaitDone i s t) ∧ SlotLeft i k s t m .aborted)
        ∧ (∀ k m, restarted = false → FlyingAt s i k m →
          ∃ t, single t ∧ t.record i = base ∧ t.slot k = some m ∧ OnlyRecord i u t)
        ∧ ∀ k m, restarted = true → FlyingAt s i k m →
          ∃ t, single t ∧ SlotLeft i k s t m .lost
            ∧ (r.state = .active → WaitTold i s t .lost
                ∧ t.record i = { endedRecord back m .lost stamp (coolsUntil s i) with phase := x })
            ∧ (r.state = .retiring → Vacated i s t))
    ∧ ∀ y, fits → r.kind = .single → restores y →
        let target : Target := ⟨y, 7, .restore⟩
        let move := enqueued s i y 7 .restore none
        (∀ k, r.move = none → LowestFree s k → s.listed i = false →
          ∃ t, single t ∧ t.record i = { back with target := some target, move := some k } ∧ superseded t
            ∧ t.slot k = some move ∧ OnlyRecordAndSlot i k u t)
        ∧ (r.move = none → ((∀ k, s.slot k ≠ none) ∨ s.listed i = true) →
          ∃ t, single t ∧ t.record i = { back with target := some target } ∧ superseded t
            ∧ Enlisted i 7 s t
            ∧ t.sched = { s.sched with waitingList := t.sched.waitingList }
            ∧ OtherRecordsStand i s t ∧ t.lines = u.lines ∧ t.batch = s.batch ∧ OutsideStands s t)
        ∧ (∀ k m, QueuedAt s i k m →
          ∃ t, single t ∧ t.record i = { back with target := some target } ∧ superseded t
            ∧ (m.toPhase = y → m.priority = 7 → t.slot k = some { m with origin := .restore })
            ∧ (¬ (m.toPhase = y ∧ m.priority = 7) →
                t.slot k = some
                  { m with
                    toPhase := y, priority := 7, origin := .restore, entryOrder := s.sched.entryCount + 1 })
            ∧ OnlyRecordAndSlot i k u t)
        ∧ (∀ k k' m, FlyingAt s i k m → LowestFreeBut s k k' → s.listed i = false →
          ∃ t, single t ∧ superseded t
            ∧ t.record i =
                { endedRecord back m .lost stamp (coolsUntil s i) with
                  phase := x, target := some target, move := some k' }
            ∧ FollowedBy i k k' s t m .lost move)
        ∧ ∀ k m, FlyingAt s i k m → s.listed i = true →
          ∃ t, single t ∧ superseded t
            ∧ t.record i =
                { endedRecord back m .lost stamp (coolsUntil s i) with phase := x, target := some target }
            ∧ ListedAfter i k s t m .lost 7

/-- An answer of a move fits: its record holds the bound generation and slot, and the slot the bound sequence number and a
state (R3). -/
def fitsMove (h : Held) (st : MoveState) (s : State) (k : SlotNo) (m : Move) : Prop :=
  h.binding.slot = some k ∧ s.slot k = some m ∧ (s.record h.binding.index).generation = h.binding.generation
    ∧ (s.record h.binding.index).move = some k ∧ m.sequence = some h.binding.sequence ∧ m.state = st

/-- A record whose move may be in flight: ACTIVE or RETIRING (R11). -/
def inService (r : Record) : Prop := r.state = .active ∨ r.state = .retiring

/-- ACCEPT makes its OFFERED move SWITCHING with the confirm delay started (R65); DECLINE ends it DECLINED, or, WRONG_FROM
with the to-phase as the unit's present phase, ALREADY (R66). An answer that fits no such move is discarded (R3). The end
of a move in flight: an ACTIVE record takes the result and its parked WAIT completes, a RETIRING one becomes VACANT and
its RETIRE completes (R41, R73, R74, R10, R11, R51), and the block that enqueued the move is told (R76, R95, R110). The
confirm delay and a timer count from the elapsed count at the operation's end (the model's choice, log 13). -/
def Obligations.AcceptAndDecline : Prop :=
  (∀ (part : Part) (h : Held) (stamp : Word32) (s u : State), openedAnswer part 0x83 s = some (h, stamp, u) →
    ((∀ k m, ¬ fitsMove h .offered s k m) → exec (.acceptProcessing part) s = .next u)
    ∧ ∀ k m, fitsMove h .offered s k m →
        ∃ t, exec (.acceptProcessing part) s = .next t
          ∧ t.slot k = some
              { m with
                state := .switching
                confirmDue := some (s.now + (s.line (s.lineOfRecord m.index)).confirmDelay) }
          ∧ OtherSlotsStand k s t ∧ t.sched = { s.sched with slots := t.sched.slots } ∧ TableStands s t
          ∧ t.lines = u.lines ∧ t.feeders = s.feeders ∧ t.batch = s.batch ∧ OutsideStands s t)
  ∧ ∀ (part : Part) (h : Held) (stamp : Word32) (s u : State), openedAnswer part 0x84 s = some (h, stamp, u) →
    ((∀ k m, ¬ fitsMove h .offered s k m) → exec (.declineProcessing part) s = .next u)
    ∧ ∀ k m, fitsMove h .offered s k m → m.index = h.binding.index → inService (s.record m.index) →
        let r := s.record m.index
        let x := phaseOf (payByte h.payload 1).toNat
        (payByte h.payload 0 ≠ 4 →
          ∃ t, exec (.declineProcessing part) s = .next t ∧ MoveEnds m.index k s t m r .declined stamp)
        ∧ (payByte h.payload 0 = 4 →
          ∃ t r', exec (.declineProcessing part) s = .next t
            ∧ r' = (if x = none ∨ x = r.phase then r
                else { r with phase := x, notices := { r.notices with drifted := true } })
            ∧ (x ≠ none → x ≠ r.phase → Raised t .unitEvent)
            ∧ (r'.phase = some m.toPhase → MoveEnds m.index k s t m r' .already stamp)
            ∧ (r'.phase ≠ some m.toPhase → MoveEnds m.index k s t m r' .declined stamp))

/-- An OUTCOME (R70 to R72): discarded unless it fits a CHECKING move; the figures, stamps and fault come first; then the
status ends the move DONE, RESTORED_BACK, UNSUPPLIED, NO_ANSWER or LOST, or, IN_PROGRESS and not the fourth, returns it
to SWITCHING with a new confirm delay. A DONE whose target differs keeps it with its WAIT, and a record then waiting is
given a follow-up move (R78), in the lowest slot then free (the model's choice, log 20), or, where its index still stands
in the waiting list, keeps its entry there with the target's priority (R57). A slot freed and filled again is told to a
stalled wave (the model's choice, log 31). The deadline, the cool-down and the confirm delay count from the elapsed count at
the operation's end (the model's choice, log 13). A follow-up's resolve mode and attempts left are the model's choice (log
47). -/
def Obligations.OutcomeEndsOrContinues : Prop :=
  ∀ (part : Part) (h : Held) (stamp : Word32) (s u : State), openedAnswer part 0x85 s = some (h, stamp, u) →
    ((∀ k m, ¬ fitsMove h .checking s k m) → exec (.outcomeProcessing part) s = .next u)
    ∧ ∀ k m, fitsMove h .checking s k m → m.index = h.binding.index → inService (s.record m.index) →
        let i := m.index
        let r := s.record i
        let landed := lands r.fault (payFigures h.payload).fault
        let fault := faultAfter r.fault (payFigures h.payload).fault stamp
        let r' := { refreshed r h.payload stamp s.now with fault := fault }
        let status := (payByte h.payload 0).toNat
        let next (t : State) := exec (.outcomeProcessing part) s = .next t ∧ (landed → Raised t .unitFault)
        let ends (res : MoveResult) := ∃ t, next t ∧ MoveEnds i k s t m r' res stamp
        (status = 1 → (∀ tg, r.target = some tg → tg.phase = m.toPhase) → ends .done)
        ∧ (∀ tg, status = 1 → r.target = some tg → tg.phase ≠ m.toPhase → r.state = .active → r.kind = .single →
            let done := { endedRecord r' m .done stamp (coolsUntil s i) with target := some tg }
            ((r.hold ≠ none ∨ fault ≠ none) →
              ∃ t, next t ∧ t.record i = done ∧ WaitStays i s t ∧ SlotLeft i k s t m .done)
            ∧ (∀ k', r.hold = none → fault = none → LowestFreeBut s k k' → s.listed i = false →
              ∃ t, next t ∧ t.record i = { done with move := some k' } ∧ WaitStays i s t
                ∧ FollowedBy i k k' s t m .done
                    (enqueued s i tg.phase tg.priority tg.origin (s.enqueuer i tg.origin)))
            ∧ (r.hold = none → fault = none → s.listed i = true →
              ∃ t, next t ∧ t.record i = done ∧ WaitStays i s t ∧ ListedAfter i k s t m .done tg.priority))
        ∧ (status = 2 → m.inProgressSeen < 3 →
          ∃ t, next t ∧ t.record i = r'
            ∧ t.slot k = some
                { m with
                  inProgressSeen := m.inProgressSeen + 1, state := .switching, resolve := false
                  confirmDue := some (s.now + (s.line (s.lineOfRecord i)).confirmDelay) }
            ∧ OtherRecordsStand i s t ∧ OtherSlotsStand k s t
            ∧ t.sched = { s.sched with slots := t.sched.slots } ∧ t.batch = s.batch ∧ OutsideStands s t)
        ∧ (status = 2 → 3 ≤ m.inProgressSeen → ends .lost)
        ∧ (status = 3 → ends .restoredBack)
        ∧ (status = 4 → ends .unsupplied)
        ∧ (status = 5 → m.resolve = true → ends .noAnswer)
        ∧ (status = 5 → m.resolve = false → ends .lost)
        ∧ ((status = 0 ∨ 5 < status) → ends .lost)

/-! ### Claims that end or begin something -/

/-- The claims of other blocks (R58, R69, R77, R79, R139, R149): slot-free service gives the lowest free slot to the first
record of the waiting list that still waits, passing over and removing the entries before it; an exhausted CHECK and a
line's halt end their move LOST while the slot still holds it; a counted hunt failure and an uncounted hunt end act on a
record still hunted. Otherwise a claim has no effect. The cool-down of a LOST end and a new hunt due count from the elapsed
count at the operation's end (the model's choice, log 13). A QUEUED move's resolve mode and attempts left are the model's
choice (log 47). -/
def Obligations.ClaimsOfOtherBlocks : Prop :=
  (∀ (part : Part) (s u : State) (v : Service), opened part (· == .slotFree) s = some (v, u) →
    (∀ k front e rest tg, s.sched.waitingList = front ++ e :: rest →
        (∀ x ∈ front, ∀ tg, ¬ waitsWith (s.record x.index) tg) → LowestFree s k → waitsWith (s.record e.index) tg →
      ∃ t, exec (.slotFreeService part) s = .next t
        ∧ t.record e.index = { s.record e.index with move := some k }
        ∧ t.slot k = some (enqueued s e.index tg.phase tg.priority tg.origin (s.enqueuer e.index tg.origin))
        ∧ t.sched.waitingList = rest ∧ t.sched.entryCount = s.sched.entryCount + 1
        ∧ OnlyRecordAndSlot e.index k s t ∧ t.batch = s.batch ∧ PickTold s t (s.lineOfRecord e.index))
    ∧ ((∃ k, s.slot k = none) → (∀ e ∈ s.sched.waitingList, ∀ tg, ¬ waitsWith (s.record e.index) tg) →
      ∃ t, exec (.slotFreeService part) s = .next t ∧ t.sched = { s.sched with waitingList := [] }
        ∧ TableStands s t ∧ t.lines = s.lines ∧ t.batch = s.batch ∧ OutsideStands s t)
    ∧ ((∀ k, s.slot k ≠ none) →
      ∃ t, exec (.slotFreeService part) s = .next t ∧ t.sched = s.sched ∧ TableStands s t ∧ t.lines = s.lines
        ∧ t.batch = s.batch ∧ OutsideStands s t))
  ∧ (∀ (part : Part) (k : SlotNo) (h : Handle) (n : Byte) (s u : State) (v : Service),
      opened part (fun c => match c with | .checkExhausted x _ _ => x == k | _ => false) s = some (v, u) →
      v.work = .claim (.checkExhausted k h n) →
      let holds (m : Move) := s.slot k = some m ∧ m.index = h.index ∧ m.generation = h.generation ∧ m.sequence = some n
        ∧ m.state = .checking
      (∀ m, holds m → inService (s.record m.index) →
        ∃ t, exec (.checkExhaustionEnd part k) s = .next t
          ∧ MoveEnds m.index k s t m (s.record m.index) .lost v.stamp)
      ∧ ((∀ m, ¬ holds m) → exec (.checkExhaustionEnd part k) s = .next u))
  ∧ (∀ (part : Part) (k : SlotNo) (h : Handle) (n : Byte) (s u : State) (v : Service),
      opened part (fun c => match c with | .lineStopLost x _ _ => x == k | _ => false) s = some (v, u) →
      v.work = .claim (.lineStopLost k h n) →
      let holds (m : Move) := s.slot k = some m ∧ m.index = h.index ∧ m.generation = h.generation ∧ m.sequence = some n
      (∀ m, holds m → m.state ≠ .queued → inService (s.record m.index) →
        ∃ t, exec (.lineStopLostEnd part k) s = .next t
          ∧ MoveEnds m.index k s t m (s.record m.index) .lost v.stamp)
      ∧ ((∀ m, ¬ holds m) → exec (.lineStopLostEnd part k) s = .next u))
  ∧ (∀ (part : Part) (h : Handle) (reason : HuntResult) (s u : State) (v : Service),
      opened part (fun c => match c with | .huntFailure x _ => x.index == h.index | _ => false) s = some (v, u) →
      v.work = .claim (.huntFailure h reason) →
      let hunted := (s.record h.index).generation = h.generation ∧ (s.record h.index).state = .provisional
      (hunted →
        ∃ t, exec (.huntFailureBookkeeping part h.index) s = .next t ∧ HuntFailed h.index s t reason
          ∧ OnlyRecord h.index s t)
      ∧ (¬ hunted → ∃ t, exec (.huntFailureBookkeeping part h.index) s = .next t ∧ TableStands s t ∧ UnitsStand s t
          ∧ OutsideStands s t))
  ∧ ∀ (part : Part) (h : Handle) (s u : State) (v : Service),
      opened part (fun c => match c with | .uncountedHunt x => x.index == h.index | _ => false) s = some (v, u) →
      v.work = .claim (.uncountedHunt h) →
      let hunted := (s.record h.index).generation = h.generation ∧ (s.record h.index).state = .provisional
      (hunted →
        ∃ t, exec (.uncountedHuntEnd part h.index) s = .next t
          ∧ t.record h.index = { s.record h.index with huntDue := some s.now } ∧ OnlyRecord h.index s t
          ∧ PickTold s t (s.lineOfRecord h.index))
      ∧ (¬ hunted → ∃ t, exec (.uncountedHuntEnd part h.index) s = .next t ∧ TableStands s t ∧ UnitsStand s t
          ∧ OutsideStands s t)

/-! ### The laws every step keeps -/

/-- Every step keeps the law of the tallies: each sum and count is that of the feeder's records (R88, R12, R13). -/
def Obligations.TallyLawIsKept : Prop := ∀ s t : State, TallyLaw s → step s = .next t → TallyLaw t

/-- Every step keeps the laws that bind the Move Table to the Connection Table and the in-flight counts (R10, R52 to
R54), and with them the laws of targets: a PROVISIONAL record has neither move nor target (R8), the target of a QUEUED
move's record has the to-phase, and a target is in the allowed set and, with no move in flight, not the present phase
(R60). -/
def Obligations.MoveTableLawIsKept : Prop :=
  ∀ s t : State, MoveTableLaw s → step s = .next t → MoveTableLaw t ∧ (TargetLaw s → TargetLaw t)

/-- Every step keeps the law of the identities: no two records in use share a service key, nor a unit address on one line
(R5). -/
def Obligations.IdentityLawIsKept : Prop :=
  ∀ s t : State, IdentityLaw s → step s = .next t → IdentityLaw t

/-- Every step keeps each of six laws: a line not RUNNING has nothing going on (R119), the two queues stay within 16
(R168, R172), the Rate Table stays in order (R141), the staging list is short and names each record once (R103), each
receive hold keeps its answers in the order in which they entered (R24), and the waiting list is ordered by priority,
highest first, then by index, with each index at most once (R57). -/
def Obligations.BlockLawsAreKept : Prop :=
  ∀ s t : State, step s = .next t →
    (StoppedLineLaw s → StoppedLineLaw t) ∧ (CapacityLaw s → CapacityLaw t) ∧ (RateLaw s → RateLaw t)
      ∧ (StagingLaw s → StagingLaw t) ∧ (HoldOrderLaw s → HoldOrderLaw t)
      ∧ (WaitingListLaw s → WaitingListLaw t)

/-- The laws hold right after a full reset. -/
def Obligations.LawsHoldAtReset : Prop :=
  TallyLaw State.reset ∧ MoveTableLaw State.reset ∧ IdentityLaw State.reset ∧ StoppedLineLaw State.reset
    ∧ CapacityLaw State.reset ∧ RateLaw State.reset ∧ StagingLaw State.reset ∧ HoldOrderLaw State.reset
    ∧ WaitingListLaw State.reset ∧ TargetLaw State.reset
end

