-- ==== Sys2Proof/Laws/State.lean ====
section
/-! SUPPORT. What each update of State leaves alone: one lemma for each field and update. -/
namespace Sys2Proof.Machine
open Sys2Proof

/-! `State.setRecord` -/
@[simp] theorem State.setRecord_pending (i : RecIdx) (r : Record) (s : State) : (State.setRecord i r s).pending = s.pending := rfl
@[simp] theorem State.setRecord_moment (i : RecIdx) (r : Record) (s : State) : (State.setRecord i r s).moment = s.moment := rfl
@[simp] theorem State.setRecord_free (i : RecIdx) (r : Record) (s : State) : (State.setRecord i r s).free = s.free := rfl
@[simp] theorem State.setRecord_port (i : RecIdx) (r : Record) (s : State) : (State.setRecord i r s).port = s.port := rfl
@[simp] theorem State.setRecord_engine (i : RecIdx) (r : Record) (s : State) : (State.setRecord i r s).engine = s.engine := rfl
@[simp] theorem State.setRecord_sched (i : RecIdx) (r : Record) (s : State) : (State.setRecord i r s).sched = s.sched := rfl
@[simp] theorem State.setRecord_feeders (i : RecIdx) (r : Record) (s : State) : (State.setRecord i r s).feeders = s.feeders := rfl
@[simp] theorem State.setRecord_batch (i : RecIdx) (r : Record) (s : State) : (State.setRecord i r s).batch = s.batch := rfl
@[simp] theorem State.setRecord_lines (i : RecIdx) (r : Record) (s : State) : (State.setRecord i r s).lines = s.lines := rfl
@[simp] theorem State.setRecord_rate (i : RecIdx) (r : Record) (s : State) : (State.setRecord i r s).rate = s.rate := rfl
@[simp] theorem State.setRecord_survey (i : RecIdx) (r : Record) (s : State) : (State.setRecord i r s).survey = s.survey := rfl
@[simp] theorem State.setRecord_time (i : RecIdx) (r : Record) (s : State) : (State.setRecord i r s).time = s.time := rfl
@[simp] theorem State.setRecord_attention (i : RecIdx) (r : Record) (s : State) : (State.setRecord i r s).attention = s.attention := rfl

/-! `State.modRecord` -/
@[simp] theorem State.modRecord_pending (i : RecIdx) (g : Record → Record) (s : State) : (State.modRecord i g s).pending = s.pending := rfl
@[simp] theorem State.modRecord_moment (i : RecIdx) (g : Record → Record) (s : State) : (State.modRecord i g s).moment = s.moment := rfl
@[simp] theorem State.modRecord_free (i : RecIdx) (g : Record → Record) (s : State) : (State.modRecord i g s).free = s.free := rfl
@[simp] theorem State.modRecord_port (i : RecIdx) (g : Record → Record) (s : State) : (State.modRecord i g s).port = s.port := rfl
@[simp] theorem State.modRecord_engine (i : RecIdx) (g : Record → Record) (s : State) : (State.modRecord i g s).engine = s.engine := rfl
@[simp] theorem State.modRecord_sched (i : RecIdx) (g : Record → Record) (s : State) : (State.modRecord i g s).sched = s.sched := rfl
@[simp] theorem State.modRecord_feeders (i : RecIdx) (g : Record → Record) (s : State) : (State.modRecord i g s).feeders = s.feeders := rfl
@[simp] theorem State.modRecord_batch (i : RecIdx) (g : Record → Record) (s : State) : (State.modRecord i g s).batch = s.batch := rfl
@[simp] theorem State.modRecord_lines (i : RecIdx) (g : Record → Record) (s : State) : (State.modRecord i g s).lines = s.lines := rfl
@[simp] theorem State.modRecord_rate (i : RecIdx) (g : Record → Record) (s : State) : (State.modRecord i g s).rate = s.rate := rfl
@[simp] theorem State.modRecord_survey (i : RecIdx) (g : Record → Record) (s : State) : (State.modRecord i g s).survey = s.survey := rfl
@[simp] theorem State.modRecord_time (i : RecIdx) (g : Record → Record) (s : State) : (State.modRecord i g s).time = s.time := rfl
@[simp] theorem State.modRecord_attention (i : RecIdx) (g : Record → Record) (s : State) : (State.modRecord i g s).attention = s.attention := rfl

/-! `State.setTarget` -/
@[simp] theorem State.setTarget_pending (i : RecIdx) (t : Target) (s : State) : (State.setTarget i t s).pending = s.pending := rfl
@[simp] theorem State.setTarget_moment (i : RecIdx) (t : Target) (s : State) : (State.setTarget i t s).moment = s.moment := rfl
@[simp] theorem State.setTarget_free (i : RecIdx) (t : Target) (s : State) : (State.setTarget i t s).free = s.free := rfl
@[simp] theorem State.setTarget_port (i : RecIdx) (t : Target) (s : State) : (State.setTarget i t s).port = s.port := rfl
@[simp] theorem State.setTarget_engine (i : RecIdx) (t : Target) (s : State) : (State.setTarget i t s).engine = s.engine := rfl
@[simp] theorem State.setTarget_sched (i : RecIdx) (t : Target) (s : State) : (State.setTarget i t s).sched = s.sched := rfl
@[simp] theorem State.setTarget_feeders (i : RecIdx) (t : Target) (s : State) : (State.setTarget i t s).feeders = s.feeders := rfl
@[simp] theorem State.setTarget_batch (i : RecIdx) (t : Target) (s : State) : (State.setTarget i t s).batch = s.batch := rfl
@[simp] theorem State.setTarget_lines (i : RecIdx) (t : Target) (s : State) : (State.setTarget i t s).lines = s.lines := rfl
@[simp] theorem State.setTarget_rate (i : RecIdx) (t : Target) (s : State) : (State.setTarget i t s).rate = s.rate := rfl
@[simp] theorem State.setTarget_survey (i : RecIdx) (t : Target) (s : State) : (State.setTarget i t s).survey = s.survey := rfl
@[simp] theorem State.setTarget_time (i : RecIdx) (t : Target) (s : State) : (State.setTarget i t s).time = s.time := rfl
@[simp] theorem State.setTarget_attention (i : RecIdx) (t : Target) (s : State) : (State.setTarget i t s).attention = s.attention := rfl

/-! `State.setSlot` -/
@[simp] theorem State.setSlot_pending (k : SlotNo) (m : Option Move) (s : State) : (State.setSlot k m s).pending = s.pending := rfl
@[simp] theorem State.setSlot_moment (k : SlotNo) (m : Option Move) (s : State) : (State.setSlot k m s).moment = s.moment := rfl
@[simp] theorem State.setSlot_free (k : SlotNo) (m : Option Move) (s : State) : (State.setSlot k m s).free = s.free := rfl
@[simp] theorem State.setSlot_port (k : SlotNo) (m : Option Move) (s : State) : (State.setSlot k m s).port = s.port := rfl
@[simp] theorem State.setSlot_engine (k : SlotNo) (m : Option Move) (s : State) : (State.setSlot k m s).engine = s.engine := rfl
@[simp] theorem State.setSlot_store (k : SlotNo) (m : Option Move) (s : State) : (State.setSlot k m s).store = s.store := rfl
@[simp] theorem State.setSlot_feeders (k : SlotNo) (m : Option Move) (s : State) : (State.setSlot k m s).feeders = s.feeders := rfl
@[simp] theorem State.setSlot_batch (k : SlotNo) (m : Option Move) (s : State) : (State.setSlot k m s).batch = s.batch := rfl
@[simp] theorem State.setSlot_lines (k : SlotNo) (m : Option Move) (s : State) : (State.setSlot k m s).lines = s.lines := rfl
@[simp] theorem State.setSlot_rate (k : SlotNo) (m : Option Move) (s : State) : (State.setSlot k m s).rate = s.rate := rfl
@[simp] theorem State.setSlot_survey (k : SlotNo) (m : Option Move) (s : State) : (State.setSlot k m s).survey = s.survey := rfl
@[simp] theorem State.setSlot_time (k : SlotNo) (m : Option Move) (s : State) : (State.setSlot k m s).time = s.time := rfl
@[simp] theorem State.setSlot_attention (k : SlotNo) (m : Option Move) (s : State) : (State.setSlot k m s).attention = s.attention := rfl

/-! `State.modSlot` -/
@[simp] theorem State.modSlot_pending (k : SlotNo) (g : Move → Move) (s : State) : (State.modSlot k g s).pending = s.pending := rfl
@[simp] theorem State.modSlot_moment (k : SlotNo) (g : Move → Move) (s : State) : (State.modSlot k g s).moment = s.moment := rfl
@[simp] theorem State.modSlot_free (k : SlotNo) (g : Move → Move) (s : State) : (State.modSlot k g s).free = s.free := rfl
@[simp] theorem State.modSlot_port (k : SlotNo) (g : Move → Move) (s : State) : (State.modSlot k g s).port = s.port := rfl
@[simp] theorem State.modSlot_engine (k : SlotNo) (g : Move → Move) (s : State) : (State.modSlot k g s).engine = s.engine := rfl
@[simp] theorem State.modSlot_store (k : SlotNo) (g : Move → Move) (s : State) : (State.modSlot k g s).store = s.store := rfl
@[simp] theorem State.modSlot_feeders (k : SlotNo) (g : Move → Move) (s : State) : (State.modSlot k g s).feeders = s.feeders := rfl
@[simp] theorem State.modSlot_batch (k : SlotNo) (g : Move → Move) (s : State) : (State.modSlot k g s).batch = s.batch := rfl
@[simp] theorem State.modSlot_lines (k : SlotNo) (g : Move → Move) (s : State) : (State.modSlot k g s).lines = s.lines := rfl
@[simp] theorem State.modSlot_rate (k : SlotNo) (g : Move → Move) (s : State) : (State.modSlot k g s).rate = s.rate := rfl
@[simp] theorem State.modSlot_survey (k : SlotNo) (g : Move → Move) (s : State) : (State.modSlot k g s).survey = s.survey := rfl
@[simp] theorem State.modSlot_time (k : SlotNo) (g : Move → Move) (s : State) : (State.modSlot k g s).time = s.time := rfl
@[simp] theorem State.modSlot_attention (k : SlotNo) (g : Move → Move) (s : State) : (State.modSlot k g s).attention = s.attention := rfl

/-! `State.modLine` -/
@[simp] theorem State.modLine_pending (l : LineNo) (g : Line → Line) (s : State) : (State.modLine l g s).pending = s.pending := rfl
@[simp] theorem State.modLine_moment (l : LineNo) (g : Line → Line) (s : State) : (State.modLine l g s).moment = s.moment := rfl
@[simp] theorem State.modLine_free (l : LineNo) (g : Line → Line) (s : State) : (State.modLine l g s).free = s.free := rfl
@[simp] theorem State.modLine_port (l : LineNo) (g : Line → Line) (s : State) : (State.modLine l g s).port = s.port := rfl
@[simp] theorem State.modLine_engine (l : LineNo) (g : Line → Line) (s : State) : (State.modLine l g s).engine = s.engine := rfl
@[simp] theorem State.modLine_store (l : LineNo) (g : Line → Line) (s : State) : (State.modLine l g s).store = s.store := rfl
@[simp] theorem State.modLine_sched (l : LineNo) (g : Line → Line) (s : State) : (State.modLine l g s).sched = s.sched := rfl
@[simp] theorem State.modLine_feeders (l : LineNo) (g : Line → Line) (s : State) : (State.modLine l g s).feeders = s.feeders := rfl
@[simp] theorem State.modLine_batch (l : LineNo) (g : Line → Line) (s : State) : (State.modLine l g s).batch = s.batch := rfl
@[simp] theorem State.modLine_rate (l : LineNo) (g : Line → Line) (s : State) : (State.modLine l g s).rate = s.rate := rfl
@[simp] theorem State.modLine_survey (l : LineNo) (g : Line → Line) (s : State) : (State.modLine l g s).survey = s.survey := rfl
@[simp] theorem State.modLine_time (l : LineNo) (g : Line → Line) (s : State) : (State.modLine l g s).time = s.time := rfl
@[simp] theorem State.modLine_attention (l : LineNo) (g : Line → Line) (s : State) : (State.modLine l g s).attention = s.attention := rfl

/-! `State.pickEvent` -/
@[simp] theorem State.pickEvent_pending (l : LineNo) (s : State) : (State.pickEvent l s).pending = s.pending := rfl
@[simp] theorem State.pickEvent_moment (l : LineNo) (s : State) : (State.pickEvent l s).moment = s.moment := rfl
@[simp] theorem State.pickEvent_free (l : LineNo) (s : State) : (State.pickEvent l s).free = s.free := rfl
@[simp] theorem State.pickEvent_port (l : LineNo) (s : State) : (State.pickEvent l s).port = s.port := rfl
@[simp] theorem State.pickEvent_engine (l : LineNo) (s : State) : (State.pickEvent l s).engine = s.engine := rfl
@[simp] theorem State.pickEvent_store (l : LineNo) (s : State) : (State.pickEvent l s).store = s.store := rfl
@[simp] theorem State.pickEvent_sched (l : LineNo) (s : State) : (State.pickEvent l s).sched = s.sched := rfl
@[simp] theorem State.pickEvent_feeders (l : LineNo) (s : State) : (State.pickEvent l s).feeders = s.feeders := rfl
@[simp] theorem State.pickEvent_batch (l : LineNo) (s : State) : (State.pickEvent l s).batch = s.batch := rfl
@[simp] theorem State.pickEvent_rate (l : LineNo) (s : State) : (State.pickEvent l s).rate = s.rate := rfl
@[simp] theorem State.pickEvent_survey (l : LineNo) (s : State) : (State.pickEvent l s).survey = s.survey := rfl
@[simp] theorem State.pickEvent_time (l : LineNo) (s : State) : (State.pickEvent l s).time = s.time := rfl
@[simp] theorem State.pickEvent_attention (l : LineNo) (s : State) : (State.pickEvent l s).attention = s.attention := rfl

/-! `State.takeAnswer` -/
@[simp] theorem State.takeAnswer_pending (l : LineNo) (s : State) : (State.takeAnswer l s).pending = s.pending := rfl
@[simp] theorem State.takeAnswer_moment (l : LineNo) (s : State) : (State.takeAnswer l s).moment = s.moment := rfl
@[simp] theorem State.takeAnswer_free (l : LineNo) (s : State) : (State.takeAnswer l s).free = s.free := rfl
@[simp] theorem State.takeAnswer_port (l : LineNo) (s : State) : (State.takeAnswer l s).port = s.port := rfl
@[simp] theorem State.takeAnswer_engine (l : LineNo) (s : State) : (State.takeAnswer l s).engine = s.engine := rfl
@[simp] theorem State.takeAnswer_store (l : LineNo) (s : State) : (State.takeAnswer l s).store = s.store := rfl
@[simp] theorem State.takeAnswer_sched (l : LineNo) (s : State) : (State.takeAnswer l s).sched = s.sched := rfl
@[simp] theorem State.takeAnswer_feeders (l : LineNo) (s : State) : (State.takeAnswer l s).feeders = s.feeders := rfl
@[simp] theorem State.takeAnswer_batch (l : LineNo) (s : State) : (State.takeAnswer l s).batch = s.batch := rfl
@[simp] theorem State.takeAnswer_rate (l : LineNo) (s : State) : (State.takeAnswer l s).rate = s.rate := rfl
@[simp] theorem State.takeAnswer_survey (l : LineNo) (s : State) : (State.takeAnswer l s).survey = s.survey := rfl
@[simp] theorem State.takeAnswer_time (l : LineNo) (s : State) : (State.takeAnswer l s).time = s.time := rfl
@[simp] theorem State.takeAnswer_attention (l : LineNo) (s : State) : (State.takeAnswer l s).attention = s.attention := rfl

/-! `State.modFeeder` -/
@[simp] theorem State.modFeeder_pending (f : FeederNo) (g : Feeder → Feeder) (s : State) : (State.modFeeder f g s).pending = s.pending := rfl
@[simp] theorem State.modFeeder_moment (f : FeederNo) (g : Feeder → Feeder) (s : State) : (State.modFeeder f g s).moment = s.moment := rfl
@[simp] theorem State.modFeeder_free (f : FeederNo) (g : Feeder → Feeder) (s : State) : (State.modFeeder f g s).free = s.free := rfl
@[simp] theorem State.modFeeder_port (f : FeederNo) (g : Feeder → Feeder) (s : State) : (State.modFeeder f g s).port = s.port := rfl
@[simp] theorem State.modFeeder_engine (f : FeederNo) (g : Feeder → Feeder) (s : State) : (State.modFeeder f g s).engine = s.engine := rfl
@[simp] theorem State.modFeeder_store (f : FeederNo) (g : Feeder → Feeder) (s : State) : (State.modFeeder f g s).store = s.store := rfl
@[simp] theorem State.modFeeder_sched (f : FeederNo) (g : Feeder → Feeder) (s : State) : (State.modFeeder f g s).sched = s.sched := rfl
@[simp] theorem State.modFeeder_batch (f : FeederNo) (g : Feeder → Feeder) (s : State) : (State.modFeeder f g s).batch = s.batch := rfl
@[simp] theorem State.modFeeder_lines (f : FeederNo) (g : Feeder → Feeder) (s : State) : (State.modFeeder f g s).lines = s.lines := rfl
@[simp] theorem State.modFeeder_rate (f : FeederNo) (g : Feeder → Feeder) (s : State) : (State.modFeeder f g s).rate = s.rate := rfl
@[simp] theorem State.modFeeder_survey (f : FeederNo) (g : Feeder → Feeder) (s : State) : (State.modFeeder f g s).survey = s.survey := rfl
@[simp] theorem State.modFeeder_time (f : FeederNo) (g : Feeder → Feeder) (s : State) : (State.modFeeder f g s).time = s.time := rfl
@[simp] theorem State.modFeeder_attention (f : FeederNo) (g : Feeder → Feeder) (s : State) : (State.modFeeder f g s).attention = s.attention := rfl

/-! `State.modBatch` -/
@[simp] theorem State.modBatch_pending (g : Batch → Batch) (s : State) : (State.modBatch g s).pending = s.pending := rfl
@[simp] theorem State.modBatch_moment (g : Batch → Batch) (s : State) : (State.modBatch g s).moment = s.moment := rfl
@[simp] theorem State.modBatch_free (g : Batch → Batch) (s : State) : (State.modBatch g s).free = s.free := rfl
@[simp] theorem State.modBatch_port (g : Batch → Batch) (s : State) : (State.modBatch g s).port = s.port := rfl
@[simp] theorem State.modBatch_engine (g : Batch → Batch) (s : State) : (State.modBatch g s).engine = s.engine := rfl
@[simp] theorem State.modBatch_store (g : Batch → Batch) (s : State) : (State.modBatch g s).store = s.store := rfl
@[simp] theorem State.modBatch_sched (g : Batch → Batch) (s : State) : (State.modBatch g s).sched = s.sched := rfl
@[simp] theorem State.modBatch_feeders (g : Batch → Batch) (s : State) : (State.modBatch g s).feeders = s.feeders := rfl
@[simp] theorem State.modBatch_lines (g : Batch → Batch) (s : State) : (State.modBatch g s).lines = s.lines := rfl
@[simp] theorem State.modBatch_rate (g : Batch → Batch) (s : State) : (State.modBatch g s).rate = s.rate := rfl
@[simp] theorem State.modBatch_survey (g : Batch → Batch) (s : State) : (State.modBatch g s).survey = s.survey := rfl
@[simp] theorem State.modBatch_time (g : Batch → Batch) (s : State) : (State.modBatch g s).time = s.time := rfl
@[simp] theorem State.modBatch_attention (g : Batch → Batch) (s : State) : (State.modBatch g s).attention = s.attention := rfl

/-! `State.modAttention` -/
@[simp] theorem State.modAttention_pending (g : Attention → Attention) (s : State) : (State.modAttention g s).pending = s.pending := rfl
@[simp] theorem State.modAttention_moment (g : Attention → Attention) (s : State) : (State.modAttention g s).moment = s.moment := rfl
@[simp] theorem State.modAttention_free (g : Attention → Attention) (s : State) : (State.modAttention g s).free = s.free := rfl
@[simp] theorem State.modAttention_port (g : Attention → Attention) (s : State) : (State.modAttention g s).port = s.port := rfl
@[simp] theorem State.modAttention_engine (g : Attention → Attention) (s : State) : (State.modAttention g s).engine = s.engine := rfl
@[simp] theorem State.modAttention_store (g : Attention → Attention) (s : State) : (State.modAttention g s).store = s.store := rfl
@[simp] theorem State.modAttention_sched (g : Attention → Attention) (s : State) : (State.modAttention g s).sched = s.sched := rfl
@[simp] theorem State.modAttention_feeders (g : Attention → Attention) (s : State) : (State.modAttention g s).feeders = s.feeders := rfl
@[simp] theorem State.modAttention_batch (g : Attention → Attention) (s : State) : (State.modAttention g s).batch = s.batch := rfl
@[simp] theorem State.modAttention_lines (g : Attention → Attention) (s : State) : (State.modAttention g s).lines = s.lines := rfl
@[simp] theorem State.modAttention_rate (g : Attention → Attention) (s : State) : (State.modAttention g s).rate = s.rate := rfl
@[simp] theorem State.modAttention_survey (g : Attention → Attention) (s : State) : (State.modAttention g s).survey = s.survey := rfl
@[simp] theorem State.modAttention_time (g : Attention → Attention) (s : State) : (State.modAttention g s).time = s.time := rfl

/-! `State.raise` -/
@[simp] theorem State.raise_pending (c : Cause) (s : State) : (State.raise c s).pending = s.pending := rfl
@[simp] theorem State.raise_moment (c : Cause) (s : State) : (State.raise c s).moment = s.moment := rfl
@[simp] theorem State.raise_free (c : Cause) (s : State) : (State.raise c s).free = s.free := rfl
@[simp] theorem State.raise_port (c : Cause) (s : State) : (State.raise c s).port = s.port := rfl
@[simp] theorem State.raise_engine (c : Cause) (s : State) : (State.raise c s).engine = s.engine := rfl
@[simp] theorem State.raise_store (c : Cause) (s : State) : (State.raise c s).store = s.store := rfl
@[simp] theorem State.raise_sched (c : Cause) (s : State) : (State.raise c s).sched = s.sched := rfl
@[simp] theorem State.raise_feeders (c : Cause) (s : State) : (State.raise c s).feeders = s.feeders := rfl
@[simp] theorem State.raise_batch (c : Cause) (s : State) : (State.raise c s).batch = s.batch := rfl
@[simp] theorem State.raise_lines (c : Cause) (s : State) : (State.raise c s).lines = s.lines := rfl
@[simp] theorem State.raise_rate (c : Cause) (s : State) : (State.raise c s).rate = s.rate := rfl
@[simp] theorem State.raise_survey (c : Cause) (s : State) : (State.raise c s).survey = s.survey := rfl
@[simp] theorem State.raise_time (c : Cause) (s : State) : (State.raise c s).time = s.time := rfl

/-! `State.newMoment` -/
@[simp] theorem State.newMoment_pending (s : State) : (State.newMoment s).pending = s.pending := rfl
@[simp] theorem State.newMoment_free (s : State) : (State.newMoment s).free = s.free := rfl
@[simp] theorem State.newMoment_port (s : State) : (State.newMoment s).port = s.port := rfl
@[simp] theorem State.newMoment_engine (s : State) : (State.newMoment s).engine = s.engine := rfl
@[simp] theorem State.newMoment_store (s : State) : (State.newMoment s).store = s.store := rfl
@[simp] theorem State.newMoment_sched (s : State) : (State.newMoment s).sched = s.sched := rfl
@[simp] theorem State.newMoment_feeders (s : State) : (State.newMoment s).feeders = s.feeders := rfl
@[simp] theorem State.newMoment_batch (s : State) : (State.newMoment s).batch = s.batch := rfl
@[simp] theorem State.newMoment_lines (s : State) : (State.newMoment s).lines = s.lines := rfl
@[simp] theorem State.newMoment_rate (s : State) : (State.newMoment s).rate = s.rate := rfl
@[simp] theorem State.newMoment_survey (s : State) : (State.newMoment s).survey = s.survey := rfl
@[simp] theorem State.newMoment_time (s : State) : (State.newMoment s).time = s.time := rfl
@[simp] theorem State.newMoment_attention (s : State) : (State.newMoment s).attention = s.attention := rfl

/-! `State.claim` -/
@[simp] theorem State.claim_pending (c : Claim) (s : State) : (State.claim c s).pending = s.pending := rfl
@[simp] theorem State.claim_moment (c : Claim) (s : State) : (State.claim c s).moment = s.moment := rfl
@[simp] theorem State.claim_free (c : Claim) (s : State) : (State.claim c s).free = s.free := rfl
@[simp] theorem State.claim_port (c : Claim) (s : State) : (State.claim c s).port = s.port := rfl
@[simp] theorem State.claim_engine (c : Claim) (s : State) : (State.claim c s).engine = s.engine := rfl
@[simp] theorem State.claim_sched (c : Claim) (s : State) : (State.claim c s).sched = s.sched := rfl
@[simp] theorem State.claim_feeders (c : Claim) (s : State) : (State.claim c s).feeders = s.feeders := rfl
@[simp] theorem State.claim_batch (c : Claim) (s : State) : (State.claim c s).batch = s.batch := rfl
@[simp] theorem State.claim_lines (c : Claim) (s : State) : (State.claim c s).lines = s.lines := rfl
@[simp] theorem State.claim_rate (c : Claim) (s : State) : (State.claim c s).rate = s.rate := rfl
@[simp] theorem State.claim_survey (c : Claim) (s : State) : (State.claim c s).survey = s.survey := rfl
@[simp] theorem State.claim_time (c : Claim) (s : State) : (State.claim c s).time = s.time := rfl
@[simp] theorem State.claim_attention (c : Claim) (s : State) : (State.claim c s).attention = s.attention := rfl

/-! `State.freeStore` -/
@[simp] theorem State.freeStore_pending (s : State) : (State.freeStore s).pending = s.pending := rfl
@[simp] theorem State.freeStore_moment (s : State) : (State.freeStore s).moment = s.moment := rfl
@[simp] theorem State.freeStore_free (s : State) : (State.freeStore s).free = s.free := rfl
@[simp] theorem State.freeStore_port (s : State) : (State.freeStore s).port = s.port := rfl
@[simp] theorem State.freeStore_engine (s : State) : (State.freeStore s).engine = s.engine := rfl
@[simp] theorem State.freeStore_sched (s : State) : (State.freeStore s).sched = s.sched := rfl
@[simp] theorem State.freeStore_feeders (s : State) : (State.freeStore s).feeders = s.feeders := rfl
@[simp] theorem State.freeStore_batch (s : State) : (State.freeStore s).batch = s.batch := rfl
@[simp] theorem State.freeStore_lines (s : State) : (State.freeStore s).lines = s.lines := rfl
@[simp] theorem State.freeStore_rate (s : State) : (State.freeStore s).rate = s.rate := rfl
@[simp] theorem State.freeStore_survey (s : State) : (State.freeStore s).survey = s.survey := rfl
@[simp] theorem State.freeStore_time (s : State) : (State.freeStore s).time = s.time := rfl
@[simp] theorem State.freeStore_attention (s : State) : (State.freeStore s).attention = s.attention := rfl

/-! `State.completeParked` -/
@[simp] theorem State.completeParked_pending (mine : Parked → Bool) (form : Parked → Completion) (s : State) : (State.completeParked mine form s).pending = s.pending := rfl
@[simp] theorem State.completeParked_moment (mine : Parked → Bool) (form : Parked → Completion) (s : State) : (State.completeParked mine form s).moment = s.moment := rfl
@[simp] theorem State.completeParked_free (mine : Parked → Bool) (form : Parked → Completion) (s : State) : (State.completeParked mine form s).free = s.free := rfl
@[simp] theorem State.completeParked_port (mine : Parked → Bool) (form : Parked → Completion) (s : State) : (State.completeParked mine form s).port = s.port := rfl
@[simp] theorem State.completeParked_store (mine : Parked → Bool) (form : Parked → Completion) (s : State) : (State.completeParked mine form s).store = s.store := rfl
@[simp] theorem State.completeParked_sched (mine : Parked → Bool) (form : Parked → Completion) (s : State) : (State.completeParked mine form s).sched = s.sched := rfl
@[simp] theorem State.completeParked_feeders (mine : Parked → Bool) (form : Parked → Completion) (s : State) : (State.completeParked mine form s).feeders = s.feeders := rfl
@[simp] theorem State.completeParked_batch (mine : Parked → Bool) (form : Parked → Completion) (s : State) : (State.completeParked mine form s).batch = s.batch := rfl
@[simp] theorem State.completeParked_lines (mine : Parked → Bool) (form : Parked → Completion) (s : State) : (State.completeParked mine form s).lines = s.lines := rfl
@[simp] theorem State.completeParked_rate (mine : Parked → Bool) (form : Parked → Completion) (s : State) : (State.completeParked mine form s).rate = s.rate := rfl
@[simp] theorem State.completeParked_survey (mine : Parked → Bool) (form : Parked → Completion) (s : State) : (State.completeParked mine form s).survey = s.survey := rfl
@[simp] theorem State.completeParked_time (mine : Parked → Bool) (form : Parked → Completion) (s : State) : (State.completeParked mine form s).time = s.time := rfl
@[simp] theorem State.completeParked_attention (mine : Parked → Bool) (form : Parked → Completion) (s : State) : (State.completeParked mine form s).attention = s.attention := rfl

/-! `State.unpark` -/
@[simp] theorem State.unpark_pending (n : ParkNo) (s : State) : (State.unpark n s).pending = s.pending := rfl
@[simp] theorem State.unpark_moment (n : ParkNo) (s : State) : (State.unpark n s).moment = s.moment := rfl
@[simp] theorem State.unpark_free (n : ParkNo) (s : State) : (State.unpark n s).free = s.free := rfl
@[simp] theorem State.unpark_port (n : ParkNo) (s : State) : (State.unpark n s).port = s.port := rfl
@[simp] theorem State.unpark_store (n : ParkNo) (s : State) : (State.unpark n s).store = s.store := rfl
@[simp] theorem State.unpark_sched (n : ParkNo) (s : State) : (State.unpark n s).sched = s.sched := rfl
@[simp] theorem State.unpark_feeders (n : ParkNo) (s : State) : (State.unpark n s).feeders = s.feeders := rfl
@[simp] theorem State.unpark_batch (n : ParkNo) (s : State) : (State.unpark n s).batch = s.batch := rfl
@[simp] theorem State.unpark_lines (n : ParkNo) (s : State) : (State.unpark n s).lines = s.lines := rfl
@[simp] theorem State.unpark_rate (n : ParkNo) (s : State) : (State.unpark n s).rate = s.rate := rfl
@[simp] theorem State.unpark_survey (n : ParkNo) (s : State) : (State.unpark n s).survey = s.survey := rfl
@[simp] theorem State.unpark_time (n : ParkNo) (s : State) : (State.unpark n s).time = s.time := rfl
@[simp] theorem State.unpark_attention (n : ParkNo) (s : State) : (State.unpark n s).attention = s.attention := rfl

/-! `State.told` -/
@[simp] theorem State.told_pending (x : Reached) (s : State) : (State.told x s).pending = s.pending := rfl
@[simp] theorem State.told_moment (x : Reached) (s : State) : (State.told x s).moment = s.moment := rfl
@[simp] theorem State.told_free (x : Reached) (s : State) : (State.told x s).free = s.free := rfl
@[simp] theorem State.told_port (x : Reached) (s : State) : (State.told x s).port = s.port := rfl
@[simp] theorem State.told_engine (x : Reached) (s : State) : (State.told x s).engine = s.engine := rfl
@[simp] theorem State.told_store (x : Reached) (s : State) : (State.told x s).store = s.store := rfl
@[simp] theorem State.told_sched (x : Reached) (s : State) : (State.told x s).sched = s.sched := rfl
@[simp] theorem State.told_feeders (x : Reached) (s : State) : (State.told x s).feeders = s.feeders := rfl
@[simp] theorem State.told_batch (x : Reached) (s : State) : (State.told x s).batch = s.batch := rfl
@[simp] theorem State.told_lines (x : Reached) (s : State) : (State.told x s).lines = s.lines := rfl
@[simp] theorem State.told_rate (x : Reached) (s : State) : (State.told x s).rate = s.rate := rfl
@[simp] theorem State.told_survey (x : Reached) (s : State) : (State.told x s).survey = s.survey := rfl
@[simp] theorem State.told_attention (x : Reached) (s : State) : (State.told x s).attention = s.attention := rfl

/-! What the updates of the store leave alone in it -/
@[simp] theorem State.setRecord_claims (i : RecIdx) (r : Record) (s : State) :
    (State.setRecord i r s).store.claims = s.store.claims := rfl
@[simp] theorem State.setRecord_inProgress (i : RecIdx) (r : Record) (s : State) :
    (State.setRecord i r s).store.inProgress = s.store.inProgress := rfl
@[simp] theorem State.setRecord_table (i : RecIdx) (r : Record) (s : State) :
    (State.setRecord i r s).store.table = s.store.table.set i r := rfl
@[simp] theorem State.claim_table (c : Claim) (s : State) : (State.claim c s).store.table = s.store.table := rfl
@[simp] theorem State.claim_inProgress (c : Claim) (s : State) :
    (State.claim c s).store.inProgress = s.store.inProgress := rfl
@[simp] theorem State.claim_claims (c : Claim) (s : State) :
    (State.claim c s).store.claims = s.store.claims ++ [⟨c, s.moment⟩] := rfl
@[simp] theorem State.freeStore_table (s : State) : s.freeStore.store.table = s.store.table := rfl
@[simp] theorem State.freeStore_claims (s : State) : s.freeStore.store.claims = s.store.claims := rfl
@[simp] theorem State.freeStore_inProgress (s : State) : s.freeStore.store.inProgress = none := rfl

/-! What is read back from what was written -/
@[simp] theorem State.record_setRecord_self (i : RecIdx) (r : Record) (s : State) :
    (State.setRecord i r s).record i = r := by simp [State.record, State.setRecord]
theorem State.record_setRecord_other {i j : RecIdx} (h : i ≠ j) (r : Record) (s : State) :
    (State.setRecord i r s).record j = s.record j := by
  have : i.val ≠ j.val := fun e => h (Fin.ext e)
  simp [State.record, State.setRecord, this]
@[simp] theorem State.slot_setSlot_self (k : SlotNo) (m : Option Move) (s : State) :
    (State.setSlot k m s).slot k = m := by simp [State.slot, State.setSlot]
theorem State.slot_setSlot_other {k j : SlotNo} (h : k ≠ j) (m : Option Move) (s : State) :
    (State.setSlot k m s).slot j = s.slot j := by
  have : k.val ≠ j.val := fun e => h (Fin.ext e)
  simp [State.slot, State.setSlot, this]
@[simp] theorem State.line_modLine_self (l : LineNo) (g : Line → Line) (s : State) :
    (State.modLine l g s).line l = g (s.line l) := by simp [State.line, State.modLine]
theorem State.line_modLine_other {l j : LineNo} (h : l ≠ j) (g : Line → Line) (s : State) :
    (State.modLine l g s).line j = s.line j := by
  have : l.val ≠ j.val := fun e => h (Fin.ext e)
  simp [State.line, State.modLine, this]
@[simp] theorem State.feeder_modFeeder_self (f : FeederNo) (g : Feeder → Feeder) (s : State) :
    (State.modFeeder f g s).feeder f = g (s.feeder f) := by simp [State.feeder, State.modFeeder]
theorem State.feeder_modFeeder_other {f j : FeederNo} (h : f ≠ j) (g : Feeder → Feeder) (s : State) :
    (State.modFeeder f g s).feeder j = s.feeder j := by
  have : f.val ≠ j.val := fun e => h (Fin.ext e)
  simp [State.feeder, State.modFeeder, this]

/-! `State.record`, `State.slot`, `State.line` and `State.feeder` after an update of another part -/
@[simp] theorem State.slot_setRecord (i : RecIdx) (r : Record) (j : SlotNo) (s : State) : (State.setRecord i r s).slot j = s.slot j := rfl
@[simp] theorem State.line_setRecord (i : RecIdx) (r : Record) (j : LineNo) (s : State) : (State.setRecord i r s).line j = s.line j := rfl
@[simp] theorem State.feeder_setRecord (i : RecIdx) (r : Record) (j : FeederNo) (s : State) : (State.setRecord i r s).feeder j = s.feeder j := rfl
@[simp] theorem State.slot_modRecord (i : RecIdx) (g : Record → Record) (j : SlotNo) (s : State) : (State.modRecord i g s).slot j = s.slot j := rfl
@[simp] theorem State.line_modRecord (i : RecIdx) (g : Record → Record) (j : LineNo) (s : State) : (State.modRecord i g s).line j = s.line j := rfl
@[simp] theorem State.feeder_modRecord (i : RecIdx) (g : Record → Record) (j : FeederNo) (s : State) : (State.modRecord i g s).feeder j = s.feeder j := rfl
@[simp] theorem State.slot_setTarget (i : RecIdx) (t : Target) (j : SlotNo) (s : State) : (State.setTarget i t s).slot j = s.slot j := rfl
@[simp] theorem State.line_setTarget (i : RecIdx) (t : Target) (j : LineNo) (s : State) : (State.setTarget i t s).line j = s.line j := rfl
@[simp] theorem State.feeder_setTarget (i : RecIdx) (t : Target) (j : FeederNo) (s : State) : (State.setTarget i t s).feeder j = s.feeder j := rfl
@[simp] theorem State.record_setSlot (k : SlotNo) (m : Option Move) (j : RecIdx) (s : State) : (State.setSlot k m s).record j = s.record j := rfl
@[simp] theorem State.line_setSlot (k : SlotNo) (m : Option Move) (j : LineNo) (s : State) : (State.setSlot k m s).line j = s.line j := rfl
@[simp] theorem State.feeder_setSlot (k : SlotNo) (m : Option Move) (j : FeederNo) (s : State) : (State.setSlot k m s).feeder j = s.feeder j := rfl
@[simp] theorem State.record_modSlot (k : SlotNo) (g : Move → Move) (j : RecIdx) (s : State) : (State.modSlot k g s).record j = s.record j := rfl
@[simp] theorem State.line_modSlot (k : SlotNo) (g : Move → Move) (j : LineNo) (s : State) : (State.modSlot k g s).line j = s.line j := rfl
@[simp] theorem State.feeder_modSlot (k : SlotNo) (g : Move → Move) (j : FeederNo) (s : State) : (State.modSlot k g s).feeder j = s.feeder j := rfl
@[simp] theorem State.record_modLine (l : LineNo) (g : Line → Line) (j : RecIdx) (s : State) : (State.modLine l g s).record j = s.record j := rfl
@[simp] theorem State.slot_modLine (l : LineNo) (g : Line → Line) (j : SlotNo) (s : State) : (State.modLine l g s).slot j = s.slot j := rfl
@[simp] theorem State.feeder_modLine (l : LineNo) (g : Line → Line) (j : FeederNo) (s : State) : (State.modLine l g s).feeder j = s.feeder j := rfl
@[simp] theorem State.record_pickEvent (l : LineNo) (j : RecIdx) (s : State) : (State.pickEvent l s).record j = s.record j := rfl
@[simp] theorem State.slot_pickEvent (l : LineNo) (j : SlotNo) (s : State) : (State.pickEvent l s).slot j = s.slot j := rfl
@[simp] theorem State.feeder_pickEvent (l : LineNo) (j : FeederNo) (s : State) : (State.pickEvent l s).feeder j = s.feeder j := rfl
@[simp] theorem State.record_takeAnswer (l : LineNo) (j : RecIdx) (s : State) : (State.takeAnswer l s).record j = s.record j := rfl
@[simp] theorem State.slot_takeAnswer (l : LineNo) (j : SlotNo) (s : State) : (State.takeAnswer l s).slot j = s.slot j := rfl
@[simp] theorem State.feeder_takeAnswer (l : LineNo) (j : FeederNo) (s : State) : (State.takeAnswer l s).feeder j = s.feeder j := rfl
@[simp] theorem State.record_modFeeder (f : FeederNo) (g : Feeder → Feeder) (j : RecIdx) (s : State) : (State.modFeeder f g s).record j = s.record j := rfl
@[simp] theorem State.slot_modFeeder (f : FeederNo) (g : Feeder → Feeder) (j : SlotNo) (s : State) : (State.modFeeder f g s).slot j = s.slot j := rfl
@[simp] theorem State.line_modFeeder (f : FeederNo) (g : Feeder → Feeder) (j : LineNo) (s : State) : (State.modFeeder f g s).line j = s.line j := rfl
@[simp] theorem State.record_modBatch (g : Batch → Batch) (j : RecIdx) (s : State) : (State.modBatch g s).record j = s.record j := rfl
@[simp] theorem State.slot_modBatch (g : Batch → Batch) (j : SlotNo) (s : State) : (State.modBatch g s).slot j = s.slot j := rfl
@[simp] theorem State.line_modBatch (g : Batch → Batch) (j : LineNo) (s : State) : (State.modBatch g s).line j = s.line j := rfl
@[simp] theorem State.feeder_modBatch (g : Batch → Batch) (j : FeederNo) (s : State) : (State.modBatch g s).feeder j = s.feeder j := rfl
@[simp] theorem State.record_modAttention (g : Attention → Attention) (j : RecIdx) (s : State) : (State.modAttention g s).record j = s.record j := rfl
@[simp] theorem State.slot_modAttention (g : Attention → Attention) (j : SlotNo) (s : State) : (State.modAttention g s).slot j = s.slot j := rfl
@[simp] theorem State.line_modAttention (g : Attention → Attention) (j : LineNo) (s : State) : (State.modAttention g s).line j = s.line j := rfl
@[simp] theorem State.feeder_modAttention (g : Attention → Attention) (j : FeederNo) (s : State) : (State.modAttention g s).feeder j = s.feeder j := rfl
@[simp] theorem State.record_raise (c : Cause) (j : RecIdx) (s : State) : (State.raise c s).record j = s.record j := rfl
@[simp] theorem State.slot_raise (c : Cause) (j : SlotNo) (s : State) : (State.raise c s).slot j = s.slot j := rfl
@[simp] theorem State.line_raise (c : Cause) (j : LineNo) (s : State) : (State.raise c s).line j = s.line j := rfl
@[simp] theorem State.feeder_raise (c : Cause) (j : FeederNo) (s : State) : (State.raise c s).feeder j = s.feeder j := rfl
@[simp] theorem State.record_newMoment (j : RecIdx) (s : State) : (State.newMoment s).record j = s.record j := rfl
@[simp] theorem State.slot_newMoment (j : SlotNo) (s : State) : (State.newMoment s).slot j = s.slot j := rfl
@[simp] theorem State.line_newMoment (j : LineNo) (s : State) : (State.newMoment s).line j = s.line j := rfl
@[simp] theorem State.feeder_newMoment (j : FeederNo) (s : State) : (State.newMoment s).feeder j = s.feeder j := rfl
@[simp] theorem State.record_claim (c : Claim) (j : RecIdx) (s : State) : (State.claim c s).record j = s.record j := rfl
@[simp] theorem State.slot_claim (c : Claim) (j : SlotNo) (s : State) : (State.claim c s).slot j = s.slot j := rfl
@[simp] theorem State.line_claim (c : Claim) (j : LineNo) (s : State) : (State.claim c s).line j = s.line j := rfl
@[simp] theorem State.feeder_claim (c : Claim) (j : FeederNo) (s : State) : (State.claim c s).feeder j = s.feeder j := rfl
@[simp] theorem State.record_freeStore (j : RecIdx) (s : State) : (State.freeStore s).record j = s.record j := rfl
@[simp] theorem State.slot_freeStore (j : SlotNo) (s : State) : (State.freeStore s).slot j = s.slot j := rfl
@[simp] theorem State.line_freeStore (j : LineNo) (s : State) : (State.freeStore s).line j = s.line j := rfl
@[simp] theorem State.feeder_freeStore (j : FeederNo) (s : State) : (State.freeStore s).feeder j = s.feeder j := rfl
@[simp] theorem State.record_completeParked (mine : Parked → Bool) (form : Parked → Completion) (j : RecIdx) (s : State) : (State.completeParked mine form s).record j = s.record j := rfl
@[simp] theorem State.slot_completeParked (mine : Parked → Bool) (form : Parked → Completion) (j : SlotNo) (s : State) : (State.completeParked mine form s).slot j = s.slot j := rfl
@[simp] theorem State.line_completeParked (mine : Parked → Bool) (form : Parked → Completion) (j : LineNo) (s : State) : (State.completeParked mine form s).line j = s.line j := rfl
@[simp] theorem State.feeder_completeParked (mine : Parked → Bool) (form : Parked → Completion) (j : FeederNo) (s : State) : (State.completeParked mine form s).feeder j = s.feeder j := rfl
@[simp] theorem State.record_unpark (n : ParkNo) (j : RecIdx) (s : State) : (State.unpark n s).record j = s.record j := rfl
@[simp] theorem State.slot_unpark (n : ParkNo) (j : SlotNo) (s : State) : (State.unpark n s).slot j = s.slot j := rfl
@[simp] theorem State.line_unpark (n : ParkNo) (j : LineNo) (s : State) : (State.unpark n s).line j = s.line j := rfl
@[simp] theorem State.feeder_unpark (n : ParkNo) (j : FeederNo) (s : State) : (State.unpark n s).feeder j = s.feeder j := rfl
@[simp] theorem State.record_told (x : Reached) (j : RecIdx) (s : State) : (State.told x s).record j = s.record j := rfl
@[simp] theorem State.slot_told (x : Reached) (j : SlotNo) (s : State) : (State.told x s).slot j = s.slot j := rfl
@[simp] theorem State.line_told (x : Reached) (j : LineNo) (s : State) : (State.told x s).line j = s.line j := rfl
@[simp] theorem State.feeder_told (x : Reached) (j : FeederNo) (s : State) : (State.told x s).feeder j = s.feeder j := rfl

end Sys2Proof.Machine
end

