-- ==== Sys2Proof/Laws/Ops.lean ====
section
/-! SUPPORT. What the shared operations of the Record Store do and leave alone: tally updates, the telling of freed slots,
the posting of completions, replies, and turns. -/
namespace Sys2Proof.Machine
open Sys2Proof

/-! ### Tally updates -/

/-- A tally update changes the feeders alone. -/
theorem State.tallyUpdate_eq (x y : Record) (s : State) :
    s.tallyUpdate x y = { s with feeders := (s.tallyUpdate x y).feeders } := by
  unfold State.tallyUpdate
  split
  · rfl
  · unfold State.tallyDraw State.tallyAdd State.tallyRemove
    cases x.standing <;> cases y.standing <;> rfl

/-- A list of tally updates changes the feeders alone. -/
theorem State.foldl_tallyUpdate_eq (l : List (Record × Record)) (s : State) :
    l.foldl (fun s p => s.tallyUpdate p.1 p.2) s =
      { s with feeders := (l.foldl (fun s p => s.tallyUpdate p.1 p.2) s).feeders } := by
  induction l generalizing s with
  | nil => rfl
  | cons p l ih =>
    simp only [List.foldl_cons]
    rw [ih (s.tallyUpdate p.1 p.2), State.tallyUpdate_eq]

/-- The tally updates of an operation change the feeders alone. -/
theorem State.tallyUpdates_eq (b a : Vector Record 512) (s : State) :
    s.tallyUpdates b a = { s with feeders := (s.tallyUpdates b a).feeders } :=
  State.foldl_tallyUpdate_eq _ s

/-- An operation that leaves the table as it was gives no tally update. -/
theorem State.tallyUpdates_self (b : Vector Record 512) (s : State) : s.tallyUpdates b b = s := by
  unfold State.tallyUpdates
  generalize b.toList = l
  induction l generalizing s with
  | nil => rfl
  | cons r l ih =>
    simp only [List.zip_cons_cons, List.foldl_cons]
    rw [show s.tallyUpdate r r = s by simp [State.tallyUpdate]]
    exact ih s

/-! ### Slots freed -/

/-- Claims that arise change the claims alone. -/
theorem State.claimTimes_eq (c : Claim) (n : Nat) (s : State) :
    State.claimTimes c n s = { s with store := { s.store with claims := (State.claimTimes c n s).store.claims } } := by
  induction n generalizing s with
  | zero => rfl
  | succ n ih => simp only [State.claimTimes]; rw [ih (s.claim c)]; rfl

/-- The claims of slot-free service change the claims alone. -/
theorem State.claimSlotFree_eq (n : Nat) (s : State) :
    s.claimSlotFree n = { s with store := { s.store with claims := (s.claimSlotFree n).store.claims } } := by
  unfold State.claimSlotFree
  split
  · rfl
  · exact State.claimTimes_eq _ _ _

/-- The telling of a stalled wave changes the claims and the batch's pending mark alone. -/
theorem State.resumeWave_eq (n : Nat) (s : State) :
    s.resumeWave n =
      { s with
        store := { s.store with claims := (s.resumeWave n).store.claims }
        batch := { s.batch with examinationPending := (s.resumeWave n).batch.examinationPending } } := by
  unfold State.resumeWave
  split
  · rw [State.claimTimes_eq]; rfl
  · rfl

/-- With no slot freed nothing is claimed and no wave is told. -/
@[simp] theorem State.claimSlotFree_zero (s : State) : s.claimSlotFree 0 = s := by
  unfold State.claimSlotFree; split <;> rfl
@[simp] theorem State.resumeWave_zero (s : State) : s.resumeWave 0 = s := rfl

/-- An operation that leaves the slots as they were frees none. -/
@[simp] theorem freedSlots_self (v : Vector (Option Move) 32) : freedSlots v v = 0 := by
  unfold freedSlots
  generalize v.toList = l
  induction l with
  | nil => rfl
  | cons m l ih =>
    simp only [List.zip_cons_cons, List.countP_cons, ih]
    cases m <;> rfl

/-- An operation that leaves the slots as they were refills none. -/
@[simp] theorem refilledSlots_self (v : Vector (Option Move) 32) : refilledSlots v v = 0 := by
  unfold refilledSlots
  generalize v.toList = l
  induction l with
  | nil => rfl
  | cons m l ih =>
    simp only [List.zip_cons_cons, List.countP_cons, ih]
    cases m with
    | none => rfl
    | some m => cases h : m.inFlight <;> simp [refilled, h]

/-! ### One record or one slot written -/

/-- Tally updates over a list with one record replaced come to that record's. -/
theorem foldl_tallyUpdate_set (l : List Record) (n : Nat) (h : n < l.length) (x : Record) (s : State) :
    (l.zip (l.set n x)).foldl (fun s p => s.tallyUpdate p.1 p.2) s = s.tallyUpdate l[n] x := by
  induction l generalizing n s with
  | nil => simp at h
  | cons a l ih =>
    cases n with
    | zero =>
      simp only [List.set_cons_zero, List.zip_cons_cons, List.foldl_cons, List.getElem_cons_zero]
      generalize s.tallyUpdate a x = u
      clear ih h
      induction l generalizing u with
      | nil => rfl
      | cons r l ih =>
        simp only [List.zip_cons_cons, List.foldl_cons]
        rw [show u.tallyUpdate r r = u by simp [State.tallyUpdate]]
        exact ih u
    | succ n =>
      simp only [List.set_cons_succ, List.zip_cons_cons, List.foldl_cons, List.getElem_cons_succ]
      rw [show s.tallyUpdate a a = s by simp [State.tallyUpdate]]
      exact ih n (by simpa using h) s

/-- An operation that changes one record gives at most its tally update (R13). -/
theorem State.tallyUpdates_set (b : Vector Record 512) (i : RecIdx) (x : Record) (s : State) :
    s.tallyUpdates b (b.set i x) = s.tallyUpdate b[i] x := by
  unfold State.tallyUpdates
  have := foldl_tallyUpdate_set b.toList i.val (by simp) x s
  rw [show (b.set i x).toList = b.toList.set i.val x from rfl, this]
  simp

/-- A count over a list and the same list with one element replaced, of a test no element meets with itself, is that
element's. -/
theorem countP_zip_set {α : Type} (test : α × α → Bool) (self : ∀ a, test (a, a) = false) (l : List α) (n : Nat)
    (h : n < l.length) (x : α) : (l.zip (l.set n x)).countP test = if test (l[n], x) then 1 else 0 := by
  induction l generalizing n with
  | nil => simp at h
  | cons a l ih =>
    have key : ∀ l : List α, (l.zip l).countP test = 0 := by
      intro l; induction l with
      | nil => rfl
      | cons m l ih => simp [ih, self]
    cases n with
    | zero => simp [List.countP_cons, key]
    | succ n =>
      simp only [List.set_cons_succ, List.zip_cons_cons, List.countP_cons, List.getElem_cons_succ]
      rw [ih n (by simpa using h), self]
      simp

/-- An operation that writes one slot frees it or none. -/
theorem freedSlots_set (v : Vector (Option Move) 32) (k : SlotNo) (x : Option Move) :
    freedSlots v (v.set k x) = if v[k].isSome && x.isNone then 1 else 0 := by
  have := countP_zip_set (fun p : Option Move × Option Move => p.1.isSome && p.2.isNone) (fun a => by cases a <;> rfl)
    v.toList k.val (by simp) x
  unfold freedSlots
  rw [show (v.set k x).toList = v.toList.set k.val x from rfl, this]
  simp

/-- A slot is not refilled by what it held. -/
@[simp] theorem refilled_self (a : Option Move) : refilled a a = false := by
  cases a with
  | none => rfl
  | some m => cases h : m.inFlight <;> simp [refilled, h]

/-- An operation that writes one slot refills it or none. -/
theorem refilledSlots_set (v : Vector (Option Move) 32) (k : SlotNo) (x : Option Move) :
    refilledSlots v (v.set k x) = if refilled v[k] x then 1 else 0 := by
  have := countP_zip_set (fun p : Option Move × Option Move => refilled p.1 p.2) refilled_self v.toList k.val (by simp) x
  unfold refilledSlots
  rw [show (v.set k x).toList = v.toList.set k.val x from rfl, this]
  simp

/-! ### What an operation hands on -/

/-- What an operation hands on changes the feeders, the claims and the batch's pending mark alone. -/
theorem State.handOn_eq (s t : State) :
    State.handOn s t =
      { t with
        feeders := (State.handOn s t).feeders
        store := { t.store with claims := (State.handOn s t).store.claims }
        batch := { t.batch with examinationPending := (State.handOn s t).batch.examinationPending } } := by
  unfold State.handOn
  simp only
  rw [State.resumeWave_eq, State.claimSlotFree_eq, State.tallyUpdates_eq]

/-- An operation that changes neither the table nor the slots hands nothing on to the feeders and the claims. -/
theorem State.handOn_quiet {s t : State} (ht : t.store.table = s.store.table) (hs : t.sched.slots = s.sched.slots) :
    State.handOn s t = t := by
  unfold State.handOn
  rw [ht, hs, State.tallyUpdates_self, freedSlots_self, refilledSlots_self]
  simp

@[simp] theorem State.handOn_table (s t : State) : (State.handOn s t).store.table = t.store.table := by
  rw [State.handOn_eq]
@[simp] theorem State.handOn_inProgress (s t : State) : (State.handOn s t).store.inProgress = t.store.inProgress := by
  rw [State.handOn_eq]
@[simp] theorem State.handOn_sched (s t : State) : (State.handOn s t).sched = t.sched := by rw [State.handOn_eq]
@[simp] theorem State.handOn_lines (s t : State) : (State.handOn s t).lines = t.lines := by rw [State.handOn_eq]
@[simp] theorem State.handOn_engine (s t : State) : (State.handOn s t).engine = t.engine := by rw [State.handOn_eq]
@[simp] theorem State.handOn_attention (s t : State) : (State.handOn s t).attention = t.attention := by
  rw [State.handOn_eq]
@[simp] theorem State.handOn_time (s t : State) : (State.handOn s t).time = t.time := by rw [State.handOn_eq]
@[simp] theorem State.handOn_survey (s t : State) : (State.handOn s t).survey = t.survey := by rw [State.handOn_eq]
@[simp] theorem State.handOn_rate (s t : State) : (State.handOn s t).rate = t.rate := by rw [State.handOn_eq]
@[simp] theorem State.handOn_port (s t : State) : (State.handOn s t).port = t.port := by rw [State.handOn_eq]
@[simp] theorem State.handOn_pending (s t : State) : (State.handOn s t).pending = t.pending := by rw [State.handOn_eq]
@[simp] theorem State.handOn_moment (s t : State) : (State.handOn s t).moment = t.moment := by rw [State.handOn_eq]
@[simp] theorem State.handOn_free (s t : State) : (State.handOn s t).free = t.free := by rw [State.handOn_eq]

/-! ### Posting (R178) -/

/-- The attention part after a raise: the pending set, the state, the timer and the edges shown may change, nothing
else. -/
theorem Attention.raise_eq (a : Attention) (now : Nat) (c : Cause) :
    a.raise now c =
      { a with
        pendingSet := a.pendingSet ||| c.bit, raised := (a.raise now c).raised, timer := (a.raise now c).timer
        falls := (a.raise now c).falls } := by
  unfold Attention.raise Attention.evaluate
  split <;> rfl

/-- One posting appends its completion and raises COMPLETION unless QUIET withholds it. -/
theorem State.post_eq (s : State) (p : Posting) :
    s.post p =
      { s with
        engine := { s.engine with completions := s.engine.completions ++ [p.completion] }
        attention := (s.post p).attention } := by
  unfold State.post State.raiseIf
  simp only
  split <;> rfl

/-- A run of postings appends their completions in order. -/
theorem State.foldl_post_eq (l : List Posting) (s : State) :
    l.foldl State.post s =
      { s with
        engine := { s.engine with completions := s.engine.completions ++ l.map (·.completion) }
        attention := (l.foldl State.post s).attention } := by
  induction l generalizing s with
  | nil => simp
  | cons p l ih =>
    simp only [List.foldl_cons, List.map_cons]
    rw [ih (s.post p), State.post_eq]
    simp [List.append_assoc]

/-- Freeing parked entries changes the parked list alone. -/
theorem State.foldl_unpark_eq (l : List ParkNo) (s : State) :
    l.foldl (fun s n => s.unpark n) s =
      { s with engine := { s.engine with parked := (l.foldl (fun s n => s.unpark n) s).engine.parked } } := by
  induction l generalizing s with
  | nil => rfl
  | cons n l ih =>
    simp only [List.foldl_cons]
    rw [ih (s.unpark n)]
    rfl

/-- Postings after the freeing of parked entries. -/
theorem State.post_unpark_eq (l : List Posting) (g : List ParkNo) (t : State) :
    l.foldl State.post (g.foldl (fun s n => s.unpark n) t) =
      { t with
        engine :=
          { t.engine with
            completions := t.engine.completions ++ l.map (·.completion)
            parked := (l.foldl State.post (g.foldl (fun s n => s.unpark n) t)).engine.parked }
        attention := (l.foldl State.post (g.foldl (fun s n => s.unpark n) t)).attention } := by
  have hp := State.foldl_post_eq l (g.foldl (fun s n => s.unpark n) t)
  have hu := State.foldl_unpark_eq g t
  have he := congrArg State.engine hp
  have hv := congrArg State.engine hu
  apply State.ext
  · exact (congrArg State.pending hp :).trans (congrArg State.pending hu :)
  · exact (congrArg State.moment hp :).trans (congrArg State.moment hu :)
  · exact (congrArg State.free hp :).trans (congrArg State.free hu :)
  · exact (congrArg State.port hp :).trans (congrArg State.port hu :)
  · apply Engine.ext
    · exact (congrArg Engine.queue he :).trans (congrArg Engine.queue hv :)
    · exact (congrArg Engine.stopped he :).trans (congrArg Engine.stopped hv :)
    · exact (congrArg Engine.inService he :).trans (congrArg Engine.inService hv :)
    · exact (congrArg Engine.previous he :).trans (congrArg Engine.previous hv :)
    · rfl
    · exact (congrArg Engine.readyOrder he :).trans (congrArg Engine.readyOrder hv :)
    · exact (congrArg Engine.completions he :).trans (congrArg (· ++ l.map (·.completion)) (congrArg Engine.completions hv :))
  · exact (congrArg State.store hp :).trans (congrArg State.store hu :)
  · exact (congrArg State.sched hp :).trans (congrArg State.sched hu :)
  · exact (congrArg State.feeders hp :).trans (congrArg State.feeders hu :)
  · exact (congrArg State.batch hp :).trans (congrArg State.batch hu :)
  · exact (congrArg State.lines hp :).trans (congrArg State.lines hu :)
  · exact (congrArg State.rate hp :).trans (congrArg State.rate hu :)
  · exact (congrArg State.survey hp :).trans (congrArg State.survey hu :)
  · exact (congrArg State.time hp :).trans (congrArg State.time hu :)
  · rfl

/-- The completions a posting appends. -/
def State.posted (own : Option Posting) (s : State) : List Posting :=
  let order := s.engine.readyNow
  let posts := (order.take (s.room own)).filterMap s.engine.postingOf
  match own with
  | none => posts
  | some c => if posts.isEmpty then [c] else insertAt (Config.ownPosition s.free) c posts

/-- A posting appends completions, frees the entries they came from and may raise COMPLETION. -/
theorem State.posting_eq (own : Option Posting) (s : State) :
    s.posting own =
      { s with
        free := s.free + 1
        engine :=
          { s.engine with
            completions := s.engine.completions ++ (s.posted own).map (·.completion)
            parked := (s.posting own).engine.parked
            readyOrder := s.engine.readyNow.drop (s.room own) }
        attention := (s.posting own).attention } := by
  exact State.post_unpark_eq _ _ _

/-- With no entry READY, a posting with a completion of the request's own posts that one. -/
theorem State.posting_own (c : Posting) {s : State} (h : s.engine.readyNow = []) :
    s.posting (some c) = { s with engine := { s.engine with readyOrder := [] }, free := s.free + 1 }.post c := by
  simp [State.posting, h]

/-- An element put in a list is in it. -/
theorem mem_insertAt {α : Type} (n : Nat) (x : α) (l : List α) : x ∈ insertAt n x l := by
  induction l generalizing n with
  | nil => simp [insertAt]
  | cons y l ih =>
    cases n with
    | zero => simp [insertAt]
    | succ m => simp [insertAt, ih m]

/-- A request's own completion is among those posted. -/
theorem State.own_mem_posted (c : Posting) (s : State) : c ∈ s.posted (some c) := by
  unfold State.posted
  simp only
  split
  · simp
  · exact mem_insertAt _ _ _

@[simp] theorem State.posting_store (o : Option Posting) (s : State) : (s.posting o).store = s.store := by
  rw [State.posting_eq]
@[simp] theorem State.posting_sched (o : Option Posting) (s : State) : (s.posting o).sched = s.sched := by
  rw [State.posting_eq]
@[simp] theorem State.posting_feeders (o : Option Posting) (s : State) : (s.posting o).feeders = s.feeders := by
  rw [State.posting_eq]
@[simp] theorem State.posting_batch (o : Option Posting) (s : State) : (s.posting o).batch = s.batch := by
  rw [State.posting_eq]
@[simp] theorem State.posting_lines (o : Option Posting) (s : State) : (s.posting o).lines = s.lines := by
  rw [State.posting_eq]
@[simp] theorem State.posting_rate (o : Option Posting) (s : State) : (s.posting o).rate = s.rate := by
  rw [State.posting_eq]
@[simp] theorem State.posting_survey (o : Option Posting) (s : State) : (s.posting o).survey = s.survey := by
  rw [State.posting_eq]
@[simp] theorem State.posting_time (o : Option Posting) (s : State) : (s.posting o).time = s.time := by
  rw [State.posting_eq]
@[simp] theorem State.posting_port (o : Option Posting) (s : State) : (s.posting o).port = s.port := by
  rw [State.posting_eq]
@[simp] theorem State.posting_pending (o : Option Posting) (s : State) : (s.posting o).pending = s.pending := by
  rw [State.posting_eq]
@[simp] theorem State.posting_moment (o : Option Posting) (s : State) : (s.posting o).moment = s.moment := by
  rw [State.posting_eq]
@[simp] theorem State.posting_completions (o : Option Posting) (s : State) :
    (s.posting o).engine.completions = s.engine.completions ++ (s.posted o).map (·.completion) := by
  rw [State.posting_eq]
@[simp] theorem State.posting_queue (o : Option Posting) (s : State) :
    (s.posting o).engine.queue = s.engine.queue := by rw [State.posting_eq]
@[simp] theorem State.posting_stopped (o : Option Posting) (s : State) :
    (s.posting o).engine.stopped = s.engine.stopped := by rw [State.posting_eq]
@[simp] theorem State.posting_inService (o : Option Posting) (s : State) :
    (s.posting o).engine.inService = s.engine.inService := by rw [State.posting_eq]
@[simp] theorem State.posting_previous (o : Option Posting) (s : State) :
    (s.posting o).engine.previous = s.engine.previous := by rw [State.posting_eq]

/-! ### Replies (R172) -/

/-- A reply changes the Request Engine, the Attention Unit and the free-value counter alone. -/
theorem State.reply_eq (q : InService) (r : Reply) (s : State) :
    s.reply q r =
      { s with
        free := s.free + 1, engine := (s.reply q r).engine, attention := (s.reply q r).attention } := by
  cases r with
  | complete st l => simp only [State.reply, State.completeNow]; rw [State.posting_eq]
  | park w x y => simp only [State.reply, State.parkNow]; rw [State.posting_eq]

@[simp] theorem State.reply_store (q : InService) (r : Reply) (s : State) : (s.reply q r).store = s.store := by
  rw [State.reply_eq]
@[simp] theorem State.reply_sched (q : InService) (r : Reply) (s : State) : (s.reply q r).sched = s.sched := by
  rw [State.reply_eq]
@[simp] theorem State.reply_feeders (q : InService) (r : Reply) (s : State) : (s.reply q r).feeders = s.feeders := by
  rw [State.reply_eq]
@[simp] theorem State.reply_batch (q : InService) (r : Reply) (s : State) : (s.reply q r).batch = s.batch := by
  rw [State.reply_eq]
@[simp] theorem State.reply_lines (q : InService) (r : Reply) (s : State) : (s.reply q r).lines = s.lines := by
  rw [State.reply_eq]
@[simp] theorem State.reply_rate (q : InService) (r : Reply) (s : State) : (s.reply q r).rate = s.rate := by
  rw [State.reply_eq]
@[simp] theorem State.reply_survey (q : InService) (r : Reply) (s : State) : (s.reply q r).survey = s.survey := by
  rw [State.reply_eq]
@[simp] theorem State.reply_time (q : InService) (r : Reply) (s : State) : (s.reply q r).time = s.time := by
  rw [State.reply_eq]
@[simp] theorem State.reply_port (q : InService) (r : Reply) (s : State) : (s.reply q r).port = s.port := by
  rw [State.reply_eq]
@[simp] theorem State.reply_pending (q : InService) (r : Reply) (s : State) : (s.reply q r).pending = s.pending := by
  rw [State.reply_eq]
@[simp] theorem State.reply_moment (q : InService) (r : Reply) (s : State) : (s.reply q r).moment = s.moment := by
  rw [State.reply_eq]

/-! ### Turns (R24) -/

/-- A turn is given only when the store is free, no answer waits, and to the claim that arose first. -/
theorem State.turn_some {want : Claim → Bool} {s : State} {w : Waiting} (h : s.turn want = some w) :
    s.store.inProgress = none ∧ s.noAnswers = true ∧ w ∈ s.store.claims ∧ want w.claim = true
      ∧ ∀ v ∈ s.store.claims, w.arose ≤ v.arose := by
  unfold State.turn at h
  split at h
  · cases h
  · rename_i hc
    have hm := List.mem_of_find?_eq_some h
    have hp := List.find?_some h
    simp only [Bool.and_eq_true, List.all_eq_true, decide_eq_true_eq] at hp
    simp only [Bool.or_eq_true, Bool.not_eq_true', not_or, Bool.not_eq_false,
      Option.not_isSome_iff_eq_none] at hc
    exact ⟨hc.1, hc.2, hm, hp.1, hp.2⟩

/-- Without a turn a claim's operation is no event, whole or begun. -/
theorem serveClaim_no_turn {want : Claim → Bool} {s : State} (fin : Service → State → State)
    (h : s.turn want = none) : serveClaim .whole want fin s = s ∧ serveClaim .begins want fin s = s := by
  simp [serveClaim, h]

end Sys2Proof.Machine
end

