-- ==== Sys2Proof/Laws/PerInstr.lean ====
section
/-! SUPPORT. The per-command family `Operands`: what its well-formedness says of each command's operands. -/
namespace Sys2Proof.Laws.Operands
open Sys2Proof

/-- The operands of a command fit the event its row names. -/
def Fits : Instr → Prop
  | .spiUnknownOperation op _ => op ≠ 1 ∧ op ≠ 2 ∧ op ≠ 3 ∧ op ≠ 4
  | .csnRiseEarly none following => following = 0
  | .csnRiseEarly (some op) following =>
    (op = 1 ∧ following < 32) ∨ (op = 2 ∧ following < 40) ∨ (op = 3 ∧ following < 16) ∨ (op = 4 ∧ following < 4)
  | .unknownControlOperation code _ => code.toNat = 0 ∨ 6 < code.toNat
  | .frameReceived _ _ wave | .characterReceived _ _ wave => wave ≠ [] ∧ ∀ n ∈ wave, 0 < n
  | .huntStartBitMeasured _ _ period => 0 < period
  | _ => True

/-- The check on a command's operands says exactly that they fit. -/
def Statement (i : Instr) : Prop := i.wellFormed = true ↔ Fits i

theorem fullReset : Statement (.fullReset) :=
  ⟨fun _ => trivial, fun _ => rfl⟩
theorem writeRequest (part : SpiPart) (record : Vector Byte 32) (extra : Nat) : Statement (.writeRequest part record extra) :=
  ⟨fun _ => trivial, fun _ => rfl⟩
theorem readCompletion (part : SpiPart) (extra : Nat) : Statement (.readCompletion part extra) :=
  ⟨fun _ => trivial, fun _ => rfl⟩
theorem readStatus (part : SpiPart) (extra : Nat) : Statement (.readStatus part extra) :=
  ⟨fun _ => trivial, fun _ => rfl⟩
theorem spiUnknownOperation (op : Byte) (following : Nat) : Statement (.spiUnknownOperation op following) := by
  unfold Statement
  by_cases h1 : op = 1#8 <;> by_cases h2 : op = 2#8 <;> by_cases h3 : op = 3#8 <;> by_cases h4 : op = 4#8 <;>
    simp [Instr.wellFormed, spiLength, Fits, h1, h2, h3, h4]
theorem csnRiseEarly (op : Option Byte) (following : Nat) : Statement (.csnRiseEarly op following) := by
  unfold Statement
  cases op with
  | none => simp [Fits, Instr.wellFormed, cutShort]
  | some op =>
    by_cases h1 : op = 1#8
    · subst h1; simp [Instr.wellFormed, cutShort, spiLength, Fits]
    · by_cases h2 : op = 2#8
      · subst h2; simp [Instr.wellFormed, cutShort, spiLength, Fits]
      · by_cases h3 : op = 3#8
        · subst h3; simp [Instr.wellFormed, cutShort, spiLength, Fits]
        · by_cases h4 : op = 4#8
          · subst h4; simp [Instr.wellFormed, cutShort, spiLength, Fits]
          · simp [Instr.wellFormed, cutShort, spiLength, Fits, h1, h2, h3, h4]
theorem arm (c : Control) : Statement (.arm c) :=
  ⟨fun _ => trivial, fun _ => rfl⟩
theorem ack (c : Control) : Statement (.ack c) :=
  ⟨fun _ => trivial, fun _ => rfl⟩
theorem soft (c : Control) : Statement (.soft c) :=
  ⟨fun _ => trivial, fun _ => rfl⟩
theorem restartQueue (c : Control) : Statement (.restartQueue c) :=
  ⟨fun _ => trivial, fun _ => rfl⟩
theorem flushQueue (c : Control) : Statement (.flushQueue c) :=
  ⟨fun _ => trivial, fun _ => rfl⟩
theorem fieldReset (c : Control) : Statement (.fieldReset c) :=
  ⟨fun _ => trivial, fun _ => rfl⟩
theorem fieldResetRecordOperation (part : Part) : Statement (.fieldResetRecordOperation part) :=
  ⟨fun _ => trivial, fun _ => rfl⟩
theorem requestTaking : Statement (.requestTaking) :=
  ⟨fun _ => trivial, fun _ => rfl⟩
theorem create (part : Part) : Statement (.create part) :=
  ⟨fun _ => trivial, fun _ => rfl⟩
theorem find (part : Part) : Statement (.find part) :=
  ⟨fun _ => trivial, fun _ => rfl⟩
theorem read (part : Part) : Statement (.read part) :=
  ⟨fun _ => trivial, fun _ => rfl⟩
theorem amend (part : Part) : Statement (.amend part) :=
  ⟨fun _ => trivial, fun _ => rfl⟩
theorem setPhase (part : Part) : Statement (.setPhase part) :=
  ⟨fun _ => trivial, fun _ => rfl⟩
theorem cancelMove (part : Part) : Statement (.cancelMove part) :=
  ⟨fun _ => trivial, fun _ => rfl⟩
theorem hold (part : Part) : Statement (.hold part) :=
  ⟨fun _ => trivial, fun _ => rfl⟩
theorem release (part : Part) : Statement (.release part) :=
  ⟨fun _ => trivial, fun _ => rfl⟩
theorem clearFault (part : Part) : Statement (.clearFault part) :=
  ⟨fun _ => trivial, fun _ => rfl⟩
theorem clearNotices (part : Part) : Statement (.clearNotices part) :=
  ⟨fun _ => trivial, fun _ => rfl⟩
theorem contact (part : Part) : Statement (.contact part) :=
  ⟨fun _ => trivial, fun _ => rfl⟩
theorem retire (part : Part) : Statement (.retire part) :=
  ⟨fun _ => trivial, fun _ => rfl⟩
theorem configureFeeder (part : Part) : Statement (.configureFeeder part) :=
  ⟨fun _ => trivial, fun _ => rfl⟩
theorem readSheet : Statement (.readSheet) :=
  ⟨fun _ => trivial, fun _ => rfl⟩
theorem stageEntry (part : Part) : Statement (.stageEntry part) :=
  ⟨fun _ => trivial, fun _ => rfl⟩
theorem startBatch (part : Part) : Statement (.startBatch part) :=
  ⟨fun _ => trivial, fun _ => rfl⟩
theorem cancelBatch (part : Part) : Statement (.cancelBatch part) :=
  ⟨fun _ => trivial, fun _ => rfl⟩
theorem readBatch : Statement (.readBatch) :=
  ⟨fun _ => trivial, fun _ => rfl⟩
theorem configureLine : Statement (.configureLine) :=
  ⟨fun _ => trivial, fun _ => rfl⟩
theorem lineStart : Statement (.lineStart) :=
  ⟨fun _ => trivial, fun _ => rfl⟩
theorem lineStop : Statement (.lineStop) :=
  ⟨fun _ => trivial, fun _ => rfl⟩
theorem readLine : Statement (.readLine) :=
  ⟨fun _ => trivial, fun _ => rfl⟩
theorem configureRate : Statement (.configureRate) :=
  ⟨fun _ => trivial, fun _ => rfl⟩
theorem configureSurvey : Statement (.configureSurvey) :=
  ⟨fun _ => trivial, fun _ => rfl⟩
theorem setTime : Statement (.setTime) :=
  ⟨fun _ => trivial, fun _ => rfl⟩
theorem configureAttention : Statement (.configureAttention) :=
  ⟨fun _ => trivial, fun _ => rfl⟩
theorem timeCountAdvance : Statement (.timeCountAdvance) :=
  ⟨fun _ => trivial, fun _ => rfl⟩
theorem dayRollover (part : Part) : Statement (.dayRollover part) :=
  ⟨fun _ => trivial, fun _ => rfl⟩
theorem reportDeadlineReached (i : RecIdx) : Statement (.reportDeadlineReached i) :=
  ⟨fun _ => trivial, fun _ => rfl⟩
theorem deadlineExpiry (part : Part) (i : RecIdx) : Statement (.deadlineExpiry part i) :=
  ⟨fun _ => trivial, fun _ => rfl⟩
theorem coolDownPassed (i : RecIdx) : Statement (.coolDownPassed i) :=
  ⟨fun _ => trivial, fun _ => rfl⟩
theorem huntDueReached (i : RecIdx) : Statement (.huntDueReached i) :=
  ⟨fun _ => trivial, fun _ => rfl⟩
theorem confirmDelayExpiry (k : SlotNo) : Statement (.confirmDelayExpiry k) :=
  ⟨fun _ => trivial, fun _ => rfl⟩
theorem persistenceTimerExpiry (f : FeederNo) : Statement (.persistenceTimerExpiry f) :=
  ⟨fun _ => trivial, fun _ => rfl⟩
theorem balancerSelection (part : Part) (f : FeederNo) : Statement (.balancerSelection part f) :=
  ⟨fun _ => trivial, fun _ => rfl⟩
theorem settleExpiry : Statement (.settleExpiry) :=
  ⟨fun _ => trivial, fun _ => rfl⟩
theorem waveExamination (part : Part) : Statement (.waveExamination part) :=
  ⟨fun _ => trivial, fun _ => rfl⟩
theorem surveyExpiry : Statement (.surveyExpiry) :=
  ⟨fun _ => trivial, fun _ => rfl⟩
theorem throttleExpiry : Statement (.throttleExpiry) :=
  ⟨fun _ => trivial, fun _ => rfl⟩
theorem linePick (l : LineNo) : Statement (.linePick l) :=
  ⟨fun _ => trivial, fun _ => rfl⟩
theorem admission (part : Part) (l : LineNo) : Statement (.admission part l) :=
  ⟨fun _ => trivial, fun _ => rfl⟩
theorem pickLookup (part : Part) (l : LineNo) : Statement (.pickLookup part l) :=
  ⟨fun _ => trivial, fun _ => rfl⟩
theorem frameSent (l : LineNo) : Statement (.frameSent l) :=
  ⟨fun _ => trivial, fun _ => rfl⟩
theorem frameReceived (l : LineNo) (wait : Nat) (wave : Wave) : Statement (.frameReceived l wait wave) := by
  unfold Statement
  simp [Instr.wellFormed, waveOk, Fits]
theorem frameGapTimeout (l : LineNo) : Statement (.frameGapTimeout l) :=
  ⟨fun _ => trivial, fun _ => rfl⟩
theorem turnaroundTimeout (l : LineNo) : Statement (.turnaroundTimeout l) :=
  ⟨fun _ => trivial, fun _ => rfl⟩
theorem huntStartBitMeasured (l : LineNo) (wait : Nat) (period : Nat) : Statement (.huntStartBitMeasured l wait period) := by
  unfold Statement
  simp [Instr.wellFormed, Fits]
theorem startBitUnclassified (l : LineNo) (wait : Nat) : Statement (.startBitUnclassified l wait) :=
  ⟨fun _ => trivial, fun _ => rfl⟩
theorem presentProcessing (part : Part) : Statement (.presentProcessing part) :=
  ⟨fun _ => trivial, fun _ => rfl⟩
theorem reportProcessing (part : Part) : Statement (.reportProcessing part) :=
  ⟨fun _ => trivial, fun _ => rfl⟩
theorem acceptProcessing (part : Part) : Statement (.acceptProcessing part) :=
  ⟨fun _ => trivial, fun _ => rfl⟩
theorem declineProcessing (part : Part) : Statement (.declineProcessing part) :=
  ⟨fun _ => trivial, fun _ => rfl⟩
theorem outcomeProcessing (part : Part) : Statement (.outcomeProcessing part) :=
  ⟨fun _ => trivial, fun _ => rfl⟩
theorem slotFreeService (part : Part) : Statement (.slotFreeService part) :=
  ⟨fun _ => trivial, fun _ => rfl⟩
theorem checkExhaustionEnd (part : Part) (k : SlotNo) : Statement (.checkExhaustionEnd part k) :=
  ⟨fun _ => trivial, fun _ => rfl⟩
theorem lineStopLostEnd (part : Part) (k : SlotNo) : Statement (.lineStopLostEnd part k) :=
  ⟨fun _ => trivial, fun _ => rfl⟩
theorem huntFailureBookkeeping (part : Part) (i : RecIdx) : Statement (.huntFailureBookkeeping part i) :=
  ⟨fun _ => trivial, fun _ => rfl⟩
theorem uncountedHuntEnd (part : Part) (i : RecIdx) : Statement (.uncountedHuntEnd part i) :=
  ⟨fun _ => trivial, fun _ => rfl⟩
theorem characterReceived (l : LineNo) (wait : Nat) (wave : Wave) : Statement (.characterReceived l wait wave) := by
  unfold Statement
  simp [Instr.wellFormed, waveOk, Fits]
theorem unknownControlOperation (code : Byte) (c : Control) : Statement (.unknownControlOperation code c) := by
  unfold Statement
  simp only [Instr.wellFormed, knownControl, Fits, Bool.not_eq_true', Bool.and_eq_false_iff, decide_eq_false_iff_not]
  omega

end Sys2Proof.Laws.Operands
end

