-- ==== Sys2Proof/Laws/Requests.lean ====
section
/-! SUPPORT. How operations are opened and requests answered: what the shared serving operations come to in the terms of
Safety.lean. -/
namespace Sys2Proof.Machine
open Sys2Proof

/-! ### Opening -/

/-- An opened operation runs its finish on the state it opens. -/
theorem serveClaim_opened {part : Part} {want : Claim → Bool} {s u : State} {v : Service}
    (h : opened part want s = some (v, u)) (fin : Service → State → State) : serveClaim part want fin s = fin v u := by
  unfold opened at h
  unfold serveClaim
  cases part with
  | whole =>
    cases ht : s.turn want with
    | none => simp [ht] at h
    | some w => simp [ht] at h; simp [← h.1, ← h.2]
  | begins => cases h
  | ends =>
    cases hp : s.store.inProgress with
    | none => simp [hp] at h
    | some x =>
      simp only [hp] at h ⊢
      split at h
      · rename_i hs
        simp at h
        simp [hs, ← h.1, ← h.2]
      · cases h

/-- The claim an opened operation serves is of its sort, and the store it opens on is free with the same table. -/
theorem opened_spec {part : Part} {want : Claim → Bool} {s u : State} {v : Service}
    (h : opened part want s = some (v, u)) :
    v.serves want = true ∧ u.store.inProgress = none ∧ u.store.table = s.store.table ∧ u.sched = s.sched
      ∧ u.engine = s.engine ∧ u.lines = s.lines ∧ u.attention = s.attention ∧ u.time = s.time ∧ u.rate = s.rate
      ∧ u.survey = s.survey ∧ u.port = s.port ∧ u.pending = s.pending ∧ u.moment = s.moment ∧ u.free = s.free := by
  unfold opened at h
  cases part with
  | whole =>
    cases ht : s.turn want with
    | none => simp [ht] at h
    | some w =>
      simp [ht] at h
      obtain ⟨rfl, rfl⟩ := h
      have hw := (State.turn_some ht).2.2.2.1
      refine ⟨?_, rfl, ?_⟩
      · unfold State.serviceOf Service.serves
        cases hc : w.claim <;> simp_all
      · unfold State.take State.clearMark
        cases w.claim <;> simp [State.freeStore] <;> (split; all_goals simp)
  | begins => cases h
  | ends =>
    cases hp : s.store.inProgress with
    | none => simp [hp] at h
    | some x =>
      simp only [hp] at h
      split at h
      · rename_i hs
        simp at h
        obtain ⟨rfl, rfl⟩ := h
        exact ⟨hs, rfl, rfl, rfl, rfl, rfl, rfl, rfl, rfl, rfl, rfl, rfl, rfl, rfl⟩
      · cases h

/-- A request's operation opens with no mark cleared. -/
theorem opened_request {part : Part} {s u : State} {v : Service}
    (h : opened part (· == .request) s = some (v, u)) : u.feeders = s.feeders ∧ u.batch = s.batch := by
  unfold opened at h
  cases part with
  | whole =>
    cases ht : s.turn (· == .request) with
    | none => simp [ht] at h
    | some w =>
      simp [ht] at h
      obtain ⟨rfl, rfl⟩ := h
      have hw := (State.turn_some ht).2.2.2.1
      have : w.claim = .request := by simpa using hw
      unfold State.take State.clearMark
      simp [this]
  | begins => cases h
  | ends =>
    cases hp : s.store.inProgress with
    | none => simp [hp] at h
    | some x =>
      simp only [hp] at h
      split at h
      · simp at h
        obtain ⟨rfl, rfl⟩ := h
        exact ⟨rfl, rfl⟩
      · cases h

/-- A request served at the store runs its body on the state its operation opens. -/
theorem serveRequestWith_opened {part : Part} {k : ReqKind} {q : InService} {v : Service} {s u : State}
    (hq : s.engine.inService = some q) (hk : reqKind q.raw = some k) (h : opened part (· == .request) s = some (v, u))
    (body : Service → Body) : serveRequestWith part k body s = u.answerRequest (body v) q v.stamp := by
  have he : u.engine.inService = some q := by rw [(opened_spec h).2.2.2.2.1]; exact hq
  unfold serveRequestWith
  rw [if_pos (by simp [State.serving, hq, hk]), serveClaim_opened h]
  simp [he]

/-- The model's tests of a request that goes into service are those of `mayBeTaken`. -/
theorem mayTake_of {raw : RawRequest} {s : State} (h : mayBeTaken raw s) : s.engine.mayTake raw = true := by
  obtain ⟨h1, h2, h3, h4, h5⟩ := h
  unfold Engine.mayTake
  simp only [h1, h2, h3, h4, Bool.not_false, Option.isNone_none, decide_true, Bool.and_true, Bool.true_and]
  cases hp : mayPark raw with
  | false => rfl
  | true =>
    obtain ⟨n, hn⟩ := h5 hp
    simp only [Bool.not_true, Bool.false_or, Engine.freeEntry, Option.isSome_map, List.findIdx?_isSome,
      List.any_eq_true]
    exact ⟨s.engine.parked[n], by simp, by rw [show s.engine.parked[n] = none from hn]; rfl⟩

/-- A request served directly, at the head of the queue, is served as it is taken (R172, log 40). -/
theorem serveDirect_eq {k : ReqKind} {q : InService} {s : State} (h : directRequest k q s) (body : Body) :
    serveDirect k body s = s.takeDirect body q.raw s.engine.queue.tail := by
  obtain ⟨⟨rest, hq⟩, -, hm, hf, hc, hk⟩ := h
  have hh : s.engine.handsOver q.raw = true := by
    unfold Engine.handsOver Engine.flushes
    rw [mayTake_of hm, hf]
    cases hx : reqChain q.raw with
    | false => rfl
    | true => simp [hc hx]
  simp [serveDirect, hq, hh, hk]

/-! ### Pending causes -/

/-- A cause pending stays pending when others join. -/
theorem or_keeps {a b c : Word16} (h : a &&& c ≠ 0) : (a ||| b) &&& c ≠ 0 := by
  intro h0
  apply h
  apply BitVec.eq_of_getLsbD_eq
  intro i hi
  have := congrArg (fun x => BitVec.getLsbD x i) h0
  simp at this
  simp
  intro ha
  exact this (Or.inl ha)

/-- A cause that joins is pending. -/
theorem or_adds {a b c : Word16} (h : b &&& c ≠ 0) : (a ||| b) &&& c ≠ 0 := by
  rw [BitVec.or_comm]
  exact or_keeps h

/-- A raise keeps what is pending. -/
theorem State.raise_keeps {s : State} {m : Word16} (h : s.attention.pendingSet &&& m ≠ 0) (x : Cause) :
    (s.raise x).attention.pendingSet &&& m ≠ 0 := by
  unfold State.raise
  simp only
  rw [Attention.raise_eq]
  exact or_keeps h

/-- A cause raised is pending. -/
theorem State.raise_raises (s : State) (c : Cause) : Raised (s.raise c) c := by
  unfold Raised State.raise
  simp only
  rw [Attention.raise_eq]
  apply or_adds
  cases c <;> decide

/-- A posting raises COMPLETION unless QUIET withholds it. -/
theorem State.post_raises (s : State) (p : Posting) (h : ¬ (p.quiet = true ∧ p.completion.status = .ok)) :
    Raised (s.post p) .completion := by
  have hb : (!(p.quiet && p.completion.status == Status.ok)) = true := by
    cases hq : p.quiet <;> simp_all
  unfold State.post State.raiseIf
  simp only [hb, if_true]
  exact State.raise_raises _ _

/-- A posting keeps what is pending. -/
theorem State.post_keeps {s : State} {m : Word16} (h : s.attention.pendingSet &&& m ≠ 0) (p : Posting) :
    (s.post p).attention.pendingSet &&& m ≠ 0 := by
  unfold State.post State.raiseIf
  simp only
  split
  · exact State.raise_keeps h _
  · exact h

/-- A run of postings keeps what is pending. -/
theorem State.foldl_post_keeps {m : Word16} (l : List Posting) {s : State} (h : s.attention.pendingSet &&& m ≠ 0) :
    (l.foldl State.post s).attention.pendingSet &&& m ≠ 0 := by
  induction l generalizing s with
  | nil => exact h
  | cons p l ih => exact ih (State.post_keeps h p)

/-- A run of postings that holds one not withheld raises COMPLETION. -/
theorem State.foldl_post_raises (l : List Posting) (s : State) (p : Posting) (hp : p ∈ l)
    (h : ¬ (p.quiet = true ∧ p.completion.status = .ok)) : Raised (l.foldl State.post s) .completion := by
  induction l generalizing s with
  | nil => cases hp
  | cons x l ih =>
    simp only [List.foldl_cons]
    cases hp with
    | head => exact State.foldl_post_keeps l (State.post_raises s p h)
    | tail _ hp => exact ih _ hp

/-- A request's own posting raises COMPLETION unless QUIET withholds it. -/
theorem State.posting_raises (s : State) (c : Posting) (h : ¬ (c.quiet = true ∧ c.completion.status = .ok)) :
    Raised (s.posting (some c)) .completion := by
  have hm := State.own_mem_posted c s
  unfold State.posting
  unfold State.posted at hm
  simp only at hm ⊢
  exact State.foldl_post_raises _ _ c hm h

/-- A posting keeps what is pending, the enables and the throttle. -/
theorem State.posting_keeps {s : State} {m : Word16} (o : Option Posting) (h : s.attention.pendingSet &&& m ≠ 0) :
    (s.posting o).attention.pendingSet &&& m ≠ 0 := by
  unfold State.posting
  apply State.foldl_post_keeps
  rw [State.foldl_unpark_eq]
  exact h

/-- A raise keeps the enables and the throttle. -/
@[simp] theorem State.raise_enables (c : Cause) (s : State) :
    (s.raise c).attention.enabledSet = s.attention.enabledSet ∧ (s.raise c).attention.throttle = s.attention.throttle := by
  unfold State.raise
  simp only
  rw [Attention.raise_eq]
  exact ⟨rfl, rfl⟩

/-- A run of postings keeps the enables and the throttle. -/
theorem State.foldl_post_enables (l : List Posting) (s : State) :
    (l.foldl State.post s).attention.enabledSet = s.attention.enabledSet
      ∧ (l.foldl State.post s).attention.throttle = s.attention.throttle := by
  induction l generalizing s with
  | nil => exact ⟨rfl, rfl⟩
  | cons p l ih =>
    have hp : (s.post p).attention.enabledSet = s.attention.enabledSet
        ∧ (s.post p).attention.throttle = s.attention.throttle := by
      unfold State.post State.raiseIf
      simp only
      split
      · exact State.raise_enables _ _
      · exact ⟨rfl, rfl⟩
    exact ⟨(ih (s.post p)).1.trans hp.1, (ih (s.post p)).2.trans hp.2⟩

/-- A posting keeps the enables and the throttle. -/
theorem State.posting_enables (o : Option Posting) (s : State) :
    (s.posting o).attention.enabledSet = s.attention.enabledSet
      ∧ (s.posting o).attention.throttle = s.attention.throttle := by
  unfold State.posting
  simp only
  constructor
  · rw [(State.foldl_post_enables _ _).1, State.foldl_unpark_eq]
  · rw [(State.foldl_post_enables _ _).2, State.foldl_unpark_eq]

/-! ### Answers -/

/-- A request whose body completes it is answered, where the body leaves the queue and the completions. -/
theorem State.reply_answered {s u : State} (q : InService) (st : Status) (result : List Byte)
    (h1 : u.engine.queue = s.engine.queue) (h2 : u.engine.stopped = s.engine.stopped)
    (h3 : u.engine.completions = s.engine.completions) : Answered s (u.reply q (.complete st result)) q st result := by
  unfold Answered State.reply State.completeNow
  refine ⟨by simp, by simp, by simpa using h1, by simpa using h2, ?_, ?_⟩
  · refine ⟨_, by rw [State.posting_completions]; simp only [h3]; rfl, ?_⟩
    exact List.mem_map.mpr ⟨_, State.own_mem_posted _ _, rfl⟩
  · by_cases h : reqQuiet q.raw = true ∧ st = .ok
    · exact Or.inl h
    · exact Or.inr (State.posting_raises _ _ h)

end Sys2Proof.Machine
end

