-- ==== Sys2Proof/Laws/Waiting.lean ====
section
/-! SUPPORT. The waiting list: what entering a record does to it, and the law it keeps (R57). -/
namespace Sys2Proof.Machine
open Sys2Proof

/-- An entry is put behind the entries ahead of it and before the first that is not. -/
theorem waitingInsert_splits (e : WaitingEntry) (l : List WaitingEntry) :
    ∃ front back, waitingInsert e l = front ++ e :: back ∧ front ++ back = l
      ∧ (∀ x ∈ front, WaitsAhead x e) ∧ ∀ x, back.head? = some x → ¬ WaitsAhead x e := by
  induction l with
  | nil => exact ⟨[], [], rfl, rfl, fun _ h => absurd h (by simp), fun _ h => absurd h (by simp)⟩
  | cons y l ih =>
    unfold waitingInsert
    split
    · next h =>
      refine ⟨[], y :: l, rfl, rfl, fun _ h => absurd h (by simp), fun x hx ha => ?_⟩
      cases hx
      simp only [Bool.or_eq_true, decide_eq_true_eq, Bool.and_eq_true, beq_iff_eq, Fin.le_def] at h
      unfold WaitsAhead at ha
      rw [Fin.lt_def] at ha
      omega
    · next h =>
      obtain ⟨front, back, hi, hl, hf, hb⟩ := ih
      refine ⟨y :: front, back, by rw [hi]; rfl, by rw [← hl]; rfl, fun x hx => ?_, hb⟩
      rcases List.mem_cons.mp hx with rfl | hx
      · simp only [Bool.or_eq_true, decide_eq_true_eq, Bool.and_eq_true, beq_iff_eq, not_or, not_and, Fin.le_def] at h
        unfold WaitsAhead
        rw [Fin.lt_def]
        omega
      · exact hf x hx

/-- Entering a record in the waiting list is what `Enlisted` says. -/
theorem State.enlist_enlisted (i : RecIdx) (priority : Nat) (s : State) : Enlisted i priority s (s.enlist i priority) :=
  waitingInsert_splits ⟨i, priority⟩ _

/-- One entry ahead of a second that is ahead of a third is ahead of the third. -/
theorem WaitsAhead.trans {x y z : WaitingEntry} (h : WaitsAhead x y) (g : WaitsAhead y z) : WaitsAhead x z := by
  unfold WaitsAhead at *
  simp only [Fin.lt_def] at *
  omega

/-- Of two entries with different indexes one is ahead. -/
theorem WaitsAhead.of_not {x y : WaitingEntry} (h : ¬ WaitsAhead x y) (hi : x.index ≠ y.index) : WaitsAhead y x := by
  have : x.index.val ≠ y.index.val := fun e => hi (Fin.ext e)
  unfold WaitsAhead at *
  simp only [Fin.lt_def] at *
  omega

/-- A record told to the Move Scheduler leaves the list in its order, each index in it at most once. -/
theorem Enlisted.keeps_law {i : RecIdx} {priority : Nat} {s t : State} (h : Enlisted i priority s t)
    (hs : WaitingListLaw s) : WaitingListLaw t := by
  obtain ⟨front, back, ht, hl, hf, hb⟩ := h
  have hsorted : (front ++ back).Pairwise WaitsAhead := hl ▸ hs.1.filter _
  have hnodup : ((front ++ back).map (·.index)).Nodup := by
    rw [hl]; exact (List.filter_sublist.map _).nodup hs.2
  have hne : ∀ x ∈ front ++ back, x.index ≠ i := fun x hx => by
    rw [hl] at hx; simpa using (List.mem_filter.mp hx).2
  have hback : ∀ x ∈ back, WaitsAhead ⟨i, priority⟩ x := by
    cases back with
    | nil => exact fun _ h => absurd h (by simp)
    | cons y l =>
      have hy := WaitsAhead.of_not (hb y rfl) (hne y (by simp))
      intro x hx
      rcases List.mem_cons.mp hx with rfl | hx
      · exact hy
      · exact hy.trans ((List.pairwise_cons.mp (List.pairwise_append.mp hsorted).2.1).1 x hx)
  unfold WaitingListLaw
  rw [ht]
  obtain ⟨h1, h2, h3⟩ := List.pairwise_append.mp hsorted
  refine ⟨List.pairwise_append.mpr ⟨h1, List.pairwise_cons.mpr ⟨hback, h2⟩, fun x hx y hy => ?_⟩, ?_⟩
  · rcases List.mem_cons.mp hy with rfl | hy
    · exact hf x hx
    · exact h3 x hx y hy
  · refine (List.perm_middle.map _).nodup_iff.mpr ?_
    exact List.nodup_cons.mpr ⟨fun h => by
      obtain ⟨x, hx, he⟩ := List.mem_map.mp h
      exact hne x hx he, hnodup⟩

/-- A list with entries taken from its front keeps the law. -/
theorem WaitingListLaw.of_suffix {s t : State} (hs : WaitingListLaw s)
    (h : t.sched.waitingList <:+ s.sched.waitingList) : WaitingListLaw t :=
  ⟨hs.1.sublist h.sublist, (h.sublist.map _).nodup hs.2⟩

end Sys2Proof.Machine
end

