-- ==== Sys2Proof/Tests/Slice0.lean ====
section
/-! SUPPORT. The model's own tests: ill-formed commands refused, values the spec gives, a few single steps, and for every
statement with hypotheses a concrete state and operands that meet them. -/
namespace Sys2Proof.Tests
open Sys2Proof Sys2Proof.Machine

-- One theorem at a time: each kernel evaluation waits for the proofs before it, and a hundred that wait together would each
-- hold a thread.
set_option Elab.async false

/-! ### Ill-formed commands -/

theorem test_illFormed_spiUnknownOperation : Instr.wellFormed (.spiUnknownOperation 3 4) = false := by decide
theorem test_illFormed_csnRiseEarly : Instr.wellFormed (.csnRiseEarly (some 4) 4) = false
    ∧ Instr.wellFormed (.csnRiseEarly none 1) = false := by decide
theorem test_illFormed_unknownControl : Instr.wellFormed (.unknownControlOperation 6 ⟨.whole, 0, 0, 0⟩) = false := by
  decide
theorem test_illFormed_frameReceived : Instr.wellFormed (.frameReceived 0 0 [30, 0]) = false := by decide
theorem test_illFormed_characterReceived : Instr.wellFormed (.characterReceived 0 0 []) = false := by decide
theorem test_illFormed_huntStartBit : Instr.wellFormed (.huntStartBitMeasured 0 0 0) = false := by decide

/-- An ill-formed command is no event. -/
theorem test_illFormed_noEvent :
    exec (.spiUnknownOperation 3 4) State.reset = .next State.reset
      ∧ exec (.characterReceived 0 0 []) State.reset = .next State.reset
      ∧ exec (.huntStartBitMeasured 0 0 0) State.reset = .next State.reset := ⟨rfl, rfl, rfl⟩

/-! ### Values the spec gives -/

/-- The CRC of R128 over the ASCII digits 1 to 9. -/
theorem test_crc : crc [0x31, 0x32, 0x33, 0x34, 0x35, 0x36, 0x37, 0x38, 0x39] = 0x29B1#16 := by
  decide +kernel

/-- The 26 request kind codes name their kinds (11.1). -/
theorem test_kindCodes : ReqKind.all.all (fun k => ReqKind.ofCode k.code == some k) = true
    ∧ ReqKind.ofCode 0x0D = none ∧ ReqKind.ofCode 0 = none := by decide

/-- No table word spells a command, and a word leaves the queue as it is (log 25). -/
theorem test_noWords : decodeTableWord 32 5 = none ∧ State.reset.withFetchWord 32 5 = State.reset := ⟨rfl, rfl⟩

/-- The OUTCOME payload of 11.5: DONE, 12.4 A, 1290 operations, no fault. -/
theorem test_outcomePayload : payFigures [0x01, 0x02, 0x00, 0x7C, 0x05, 0x0A, 0x00] = ⟨⟨124, 0, 0⟩, 1290, 0⟩ := by
  decide +kernel

/-! ### Small states -/

/-- A record in service: SINGLE, ACTIVE, on feeder 0, phase A, all phases allowed. -/
def rec0 : Record :=
  { Record.vacant 1 with
    state := .active, serviceKey := 9, unitAddress := 5, allowed := ⟨true, true, true⟩, phase := some .A,
    rateClass := some 2 }

/-- A QUEUED move of record 3 to phase B. -/
def move0 : Move := enqueued State.reset 3 .B 4 .host none

/-- The same move OFFERED with sequence number 7. -/
def moveUp (st : MoveState) : Move := { move0 with state := st, generation := 1, sequence := some 7, fromPhase := some .A }

/-- Feeder 0 configured, record 3 as given, slot 0 as given. -/
def base (r : Record) (m : Option Move) : State :=
  ((State.reset.setRecord 3 r).setSlot 0 m).modFeeder 0 (fun f => { f with configured := true })

/-- A request in service at the store, its claim waiting. -/
def served (raw : RawRequest) (s : State) : State :=
  { s with
    engine := { s.engine with inService := some ⟨raw, some 0⟩ }, store := { s.store with claims := [⟨.request, 1⟩] } }

/-- The queue holding one request. -/
def queued (raw : RawRequest) (previous : Status) : State :=
  { State.reset with engine := { State.reset.engine with queue := [raw], previous := previous } }

theorem queued_mayBeTaken (raw : RawRequest) (previous : Status) : mayBeTaken raw (queued raw previous) :=
  ⟨rfl, rfl, by simp [queued, Engine.noneReady, State.reset], Nat.zero_lt_succ 15, fun _ => ⟨0, by simp [State.park, queued, State.reset]⟩⟩

/-- A request alone in the queue is served directly as it is taken, whatever the other blocks hold. -/
theorem directRequest_queued {k : ReqKind} {raw : RawRequest} (s : State) (he : s.engine = (queued raw .ok).engine)
    (hm : malformed raw = false) (hk : reqKind raw = some k) : directRequest k ⟨raw, none⟩ s := by
  have h := queued_mayBeTaken raw .ok
  unfold mayBeTaken State.park at h
  rw [← he] at h
  exact ⟨⟨[], by rw [he]; rfl⟩, rfl, h, hm, fun _ => by rw [he]; rfl, hk⟩

/-- A request record: kind, flags, cookie 0, parameters. -/
def request (kind flags : Byte) (params : List Byte) : RawRequest := area ([kind, flags, 0, 0, 0, 0] ++ params)

/-- A claim waiting at a free store. -/
def claimed (c : Claim) (s : State) : State := { s with store := { s.store with claims := [⟨c, 1⟩] } }

/-- An answer held on line 0. -/
def answered (h : Held) (s : State) : State := s.modLine 0 (fun l => { l with receiveHold := [h] })

/-- The service a claim gets. -/
def service (c : Claim) (s : State) : Service := s.serviceOf c

/-- A claim alone at a free store with no answer waiting is served. -/
theorem opened_claimed {want : Claim → Bool} {c : Claim} {s : State} (h : want c = true) (ha : s.noAnswers = true)
    (hp : s.store.inProgress = none) :
    opened .whole want (claimed c s) =
      some ((claimed c s).serviceOf c, ((claimed c s).take ⟨c, 1⟩).freeStore) := by
  have : (claimed c s).turn want = some ⟨c, 1⟩ := by
    unfold State.turn
    rw [if_neg (by simp [claimed, hp]; exact ha)]
    simp [claimed, h]
  simp [opened, this]

/-- A request alone at a free store with no answer waiting is served. -/
theorem storeRequest_served {k : ReqKind} {raw : RawRequest} {s : State} (hk : reqKind raw = some k)
    (ha : s.noAnswers = true) (hp : s.store.inProgress = none) :
    storeRequest .whole k ⟨raw, some 0⟩ ((served raw s).serviceOf .request) (served raw s) := by
  refine ⟨rfl, hk, ((served raw s).take ⟨.request, 1⟩).freeStore, ?_⟩
  have : (served raw s).turn (· == .request) = some ⟨.request, 1⟩ := by
    unfold State.turn
    rw [if_neg (by simp [served, hp]; exact ha)]
    simp [served]
  simp [opened, this]

/-- A request on record 3 is served and named. -/
theorem recordRequest_served {k : ReqKind} {raw : RawRequest} {r : Record} {m : Option Move}
    (hk : reqKind raw = some k) (hi : reqHandle raw = ⟨3, 1⟩) (hg : r.generation = 1) (hs : r.state ≠ .vacant) :
    recordRequest .whole k ⟨raw, some 0⟩ ((served raw (base r m)).serviceOf .request) 3 (served raw (base r m)) := by
  refine ⟨storeRequest_served hk rfl rfl, by rw [hi], ?_⟩
  have hr : (served raw (base r m)).record (reqHandle raw).index = r := by
    rw [hi]; exact State.record_setRecord_self 3 r State.reset
  unfold State.names
  rw [hr, hi]
  simp [hg, hs]

/-- Record 3 of a small state. -/
theorem base_self (r : Record) (m : Option Move) : (base r m).record 3 = r := State.record_setRecord_self 3 r State.reset

/-- Every other record of a small state is VACANT. -/
theorem base_other (r : Record) (m : Option Move) {j : RecIdx} (h : j ≠ 3) : (base r m).record j = Record.vacant 0 := by
  have : (base r m).record j = State.reset.record j := State.record_setRecord_other (fun e => h e.symm) r State.reset
  rw [this]
  simp [State.record, State.reset]

/-- Slot 0 of a small state, and the free ones. -/
theorem base_slot (r : Record) (m : Option Move) :
    (base r m).slot 0 = m ∧ ∀ k : SlotNo, k ≠ 0 → (base r m).slot k = none := by
  refine ⟨State.slot_setSlot_self 0 m _, fun k h => ?_⟩
  have : (base r m).slot k = State.reset.slot k := State.slot_setSlot_other (fun e => h e.symm) m _
  rw [this]
  simp [State.slot, State.reset]

/-- The lowest free slot of a small state. -/
theorem base_lowest (r : Record) (m : Option Move) :
    (m = none → LowestFree (base r m) 0) ∧ (m ≠ none → LowestFree (base r m) 1) := by
  refine ⟨fun h => ⟨by rw [(base_slot r m).1]; exact h, fun j hj => absurd hj (by simp)⟩, fun h => ⟨(base_slot r m).2 1 (by decide), fun j hj => ?_⟩⟩
  have : j = 0 := Fin.ext (Nat.lt_one_iff.mp hj)
  subst this
  rw [(base_slot r m).1]
  exact h

/-- Every slot taken. -/
def full (s : State) : State := { s with sched := { s.sched with slots := Vector.replicate 32 (some move0) } }

theorem full_slot (s : State) (k : SlotNo) : (full s).slot k ≠ none := by simp [State.slot, full]

/-- A move QUEUED, and one in flight, of record 3 in slot 0. -/
def queuedRec : Record := { rec0 with move := some 0, target := some ⟨.B, 4, .host⟩ }
def queuedMove : Move := { move0 with generation := 1 }

theorem base_queued (r : Record) (h : r.move = some 0) : QueuedAt (base r (some queuedMove)) 3 0 queuedMove :=
  ⟨by rw [base_self]; exact h, (base_slot _ _).1, rfl, rfl⟩

theorem base_flying (r : Record) (h : r.move = some 0) (st : MoveState) (hs : st ≠ .queued) :
    FlyingAt (base r (some (moveUp st))) 3 0 (moveUp st) :=
  ⟨by rw [base_self]; exact h, (base_slot _ _).1, rfl, hs⟩

/-- The laws of the Move Table hold of a small state whose record 3 has its QUEUED move in slot 0. -/
theorem base_moveTableLaw {r : Record} {m : Move} (h1 : r.move = some 0) (h2 : m.index = 3)
    (h3 : m.generation = r.generation) (h4 : r.state = .active) (h5 : m.state = .queued) :
    MoveTableLaw (base r (some m)) := by
  refine ⟨fun i k h => ?_, fun k n h => ?_, fun i h => ?_, fun f => ?_⟩
  · by_cases hi : i = 3
    · subst hi; rw [base_self, h1] at h; cases h; exact ⟨m, (base_slot _ _).1, h2⟩
    · rw [base_other _ _ hi] at h; cases h
  · by_cases hk : k = 0
    · subst hk; rw [(base_slot _ _).1] at h; cases h; rw [h2, base_self]; exact ⟨h1, h3, Or.inl h4⟩
    · rw [(base_slot _ _).2 k hk] at h; cases h
  · by_cases hi : i = 3
    · subst hi; rw [base_self, h4] at h; cases h
    · rw [base_other _ _ hi]; rfl
  · have h0 : (base r (some m)).sched.inFlight[f] = 0 := by simp [base, State.setRecord, State.setSlot, State.modFeeder, State.reset]
    rw [h0]
    refine (List.countP_eq_zero.mpr fun o ho => ?_).symm
    have : o = none ∨ o = some m := by
      have ho : o ∈ ((List.replicate 32 (none : Option Move)).set 0 (some m)) := ho
      rcases List.mem_or_eq_of_mem_set ho with h | h
      · exact Or.inl (List.eq_of_mem_replicate h)
      · exact Or.inr h
    rcases this with rfl | rfl <;> simp [h5]

/-! ### Witnesses: the queue, the resets and the port -/

/-- A control that is the whole transaction, naming COMPLETION. -/
def ctl : Control := ⟨.whole, 0, 1, 0⟩

theorem witness_StepRunsFrontCommand :
    ({ State.reset with pending := [.requestTaking] } : State).pending = .requestTaking :: [] ∧ State.reset.pending = [] :=
  ⟨rfl, rfl⟩

theorem witness_spi : spiEnds ctl.part 4 State.reset = true ∧ spiEnds .whole 1 State.reset = true
    ∧ spiEnds .ends 1 { State.reset with port := ⟨some ⟨some 1, 0, [], false, false⟩, []⟩ } = true
    ∧ spiEnds .whole 1 { State.reset with port := ⟨some ⟨none, 0, [], false, false⟩, []⟩ } = true := by decide

/-- Transactions as CSn's fall, a decoding and a fall under RESETn leave them, and one cut short. -/
theorem witness_SpiBeginning :
    State.reset.port.txn = none ∧ knownControl 0 = false
      ∧ (({ State.reset with port := ⟨some ⟨none, 4, [], false, false⟩, []⟩ } : State).port.txn.all
          (fun t => t.op.isNone && !t.ignored)) = true
      ∧ (∃ s x, (s : State).port.txn = some x ∧ x.ignored = true ∧ x.op = none)
      ∧ (∃ s x, (s : State).port.txn = some x ∧ x.ignored = true ∧ x.op = some 3 ∧ cutShort (x.op.or none) 15 = true) :=
  ⟨rfl, by decide, by decide, ⟨{ State.reset with port := ⟨some ⟨none, 0, [], false, true⟩, []⟩ }, _, rfl, rfl, rfl⟩,
    ⟨{ State.reset with port := ⟨some ⟨some 3, 0, [], false, true⟩, []⟩ }, _, rfl, rfl, rfl, by decide⟩⟩

theorem witness_FieldResetRecords :
    opened .whole (· == .fieldReset) (claimed .fieldReset (base queuedRec (some queuedMove))) ≠ none := by
  rw [opened_claimed rfl rfl rfl]; exact Option.some_ne_none _

/-- The holds of a state whose lines are those of the full reset. -/
theorem reset_hold {s : State} (h : s.lines = State.reset.lines) (l : LineNo) : (s.line l).receiveHold = [] := by
  simp [State.line, h, State.reset, Line.reset]

theorem witness_StoreServesOneOperation :
    (∃ s : State, s.store.inProgress ≠ none ∧ storeOperation .whole (.create .whole) ∧ Part.whole ≠ .ends)
      ∧ storeOperation .begins (.waveExamination .begins) ∧ storeOperation .ends (.presentProcessing .ends)
      ∧ itsTurn (claimed .wave State.reset) ⟨.wave, 1⟩
      ∧ servesClaim .begins (claimed .wave State.reset) (.waveExamination .begins) .wave
      ∧ servesClaim .begins (served (request 0x01 0 []) State.reset) (.create .begins) .request := by
  refine ⟨⟨{ State.reset with store := { State.reset.store with inProgress := some (service .wave State.reset) } }, ?_⟩,
    ?_, ?_, ⟨rfl, fun l => reset_hold rfl l, List.mem_singleton.mpr rfl, fun x h => ?_⟩, rfl,
    ⟨.create, _, by simp [requestOperations], rfl, by decide +kernel⟩⟩
  · simp [storeOperation, requestOperations]
  · simp [storeOperation]
  · simp [storeOperation, answerOperations]
  · cases List.mem_singleton.mp h; exact Nat.le_refl _

/-- An answer on each line, the one of line 1 the first to enter; its processing; and commands out of turn. -/
theorem witness_StoreAnswers :
    let x : Held := ⟨0x81, 0, [], ⟨.summon, 3, 1, 5, 104, none, 0⟩, none, 2⟩
    let s := (({ State.reset with moment := 2 } : State).modLine 0 (fun l => { l with receiveHold := [x] })).modLine 1
      (fun l => { l with receiveHold := [{ x with function := 0x82, entered := 1 }, x] })
    s.oldestAnswer = some (1, { x with function := 0x82, entered := 1 }) ∧ s.store.inProgress = none
      ∧ servesAnswer .begins (.reportProcessing .begins) { x with function := 0x82, entered := 1 }
      ∧ ¬ servesAnswer .begins (.presentProcessing .begins) { x with function := 0x82, entered := 1 }
      ∧ (∀ w, ¬ itsTurn s w) ∧ HoldOrderLaw s
      ∧ ¬ servesClaim .ends s (.slotFreeService .ends) .wave := by
  intro x s
  have h0 : (s.line 0).receiveHold = [x] := by
    rw [State.line_modLine_other (by decide), State.line_modLine_self]
  have h1 : (s.line 1).receiveHold = [{ x with function := 0x82, entered := 1 }, x] := by
    rw [State.line_modLine_self]
  refine ⟨by simp [State.oldestAnswer, h0, h1, x], rfl, by simp [servesAnswer, answerOperations], by
    simp [servesAnswer, answerOperations], fun w h => ?_, fun l => ?_, by simp [servesClaim]⟩
  · have := h.2.1 0
    rw [h0] at this
    cases this
  · have : ∀ l : LineNo, l = 0 ∨ l = 1 := by decide
    have := this l
    rcases this with rfl | rfl
    · rw [h0]; simp [x, s]
    · rw [h1]; simp [x, s]

/-- A line with a move in flight on its feeder, a SUMMON outstanding and a PRESENT in its hold, as a halt finds it. -/
theorem witness_Halt :
    let x : Held := ⟨0x81, 0, [], ⟨.summon, 3, 1, 5, 104, none, 0⟩, none, 1⟩
    let ln := { Line.reset with
      state := .running, activity := .listening, out := some ⟨.summon, 4, 1, 6, 3333, none, 0⟩, receiveHold := [x] }
    let s := (base queuedRec (some (moveUp .switching))).modLine 0 (fun _ => ln)
    (s.line 0).state = .running ∧ s.slot 0 = some (moveUp .switching) ∧ (moveUp .switching).state ≠ .queued
      ∧ (moveUp .switching).closed = false ∧ s.lineOfRecord (moveUp .switching).index = 0
      ∧ (∃ t, (s.line 0).out = some t ∧ t.kind = .summon) ∧ x ∈ (s.line 0).receiveHold := by
  intro x ln s
  have hl : s.line 0 = ln := State.line_modLine_self 0 _ _
  refine ⟨by rw [hl], (base_slot queuedRec (some (moveUp .switching))).1, by decide, rfl, ?_, ⟨_, by rw [hl], rfl⟩,
    by rw [hl]; exact List.mem_singleton.mpr rfl⟩
  show (State.feeder _ (State.record _ 3).feeder).line = 0
  rw [show s.record 3 = queuedRec from base_self queuedRec (some (moveUp .switching))]
  decide +kernel

/-- A completion, for the head of the queue. -/
def completion0 : Completion := ⟨0x03, .ok, false, 7, area [0, 3, 1]⟩

theorem witness_ReadCompletion :
    (∃ s : State, spiEnds .whole 2 s = true ∧ s.engine.completions = completion0 :: [])
      ∧ (spiEnds .whole 2 State.reset = true ∧ State.reset.engine.completions = [])
      ∧ ∃ s x, (s : State).port.txn = some x ∧ x.op = some 2 ∧ x.ignored = false ∧ x.head = true :=
  ⟨⟨{ State.reset with engine := { State.reset.engine with completions := [completion0] } }, by decide, rfl⟩,
    ⟨by decide, rfl⟩, { State.reset with port := ⟨some ⟨some 2, 4, [], true, false⟩, []⟩ }, _, rfl, rfl, rfl, rfl⟩

/-- A parked entry, WAITING or READY. -/
def parked (kind : Byte) (h : Option Handle) (ready : Option Completion) : Parked :=
  ⟨kind, 7, false, h, .targetRemoval, 1, 0, ready⟩

/-- The parked list changed. -/
def withParked (g : Vector (Option Parked) 8 → Vector (Option Parked) 8) (s : State) : State :=
  { s with engine := { s.engine with parked := g s.engine.parked } }

/-- Entries 0 and 5 READY in the order 5, 0 with the completion queue one short of full: one place, for entry 5. -/
theorem witness_ReadyPosted :
    let s := withParked (fun v => (v.set 0 (some (parked 5 none (some completion0)))).set 5
      (some (parked 0x0B none (some completion0)))) State.reset
    let s := { s with
      engine := { s.engine with readyOrder := [5, 0], completions := List.replicate 15 completion0 } }
    inReadiness s = [5, 0] ∧ roomFor s = 1 := by
  decide +kernel

/-- A WAIT, a CONTACT and a RETIRE of record 3 and a START BATCH parked, WAITING, with entry 0 free for a request. -/
theorem witness_Parked (s : State) :
    let t := withParked (fun _ => #v[none, some (parked 0x05 (some ⟨3, 1⟩) none), some (parked 0x0B (some ⟨3, 1⟩) none),
      some (parked 0x0C (some ⟨3, 1⟩) none), some (parked 0x19 none none), none, none, none]) s
    Awaits t 1 (parked 0x05 (some ⟨3, 1⟩) none) 0x05 (some ⟨3, 1⟩)
      ∧ Awaits t 2 (parked 0x0B (some ⟨3, 1⟩) none) 0x0B (some ⟨3, 1⟩)
      ∧ Awaits t 3 (parked 0x0C (some ⟨3, 1⟩) none) 0x0C (some ⟨3, 1⟩)
      ∧ Awaits t 4 (parked 0x19 none none) 0x19 none ∧ ∀ raw, entryFree ⟨raw, some 0⟩ t :=
  ⟨⟨rfl, rfl, rfl, rfl⟩, ⟨rfl, rfl, rfl, rfl⟩, ⟨rfl, rfl, rfl, rfl⟩, ⟨rfl, rfl, rfl, rfl⟩,
    fun _ n h => by cases h; rfl⟩

theorem witness_ReadStatus : (∃ s x, (s : State).port.txn = some x ∧ x.op = some 3 ∧ x.ignored = false)
    ∧ spiEnds .whole 3 State.reset = true :=
  ⟨⟨{ State.reset with port := ⟨some ⟨some 3, 0, [], false, false⟩, []⟩ }, _, rfl, rfl, rfl⟩, by decide⟩

theorem witness_UndefinedAndCutShort :
    (spiLength 0 = none ∧ spiLength 5 = none) ∧ cutShort (some 1) 31 = true ∧ cutShort none 0 = true
      ∧ knownControl 0 = false ∧ knownControl 7 = false
      ∧ State.reset.port.txn.all (fun t => t.op.isNone && !t.ignored) = true
      ∧ ∃ s x, (s : State).port.txn = some x ∧ x.op = some 4 ∧ x.ignored = false ∧ cutShort x.op 3 = true :=
  ⟨by decide, by decide, by decide, by decide, by decide, by decide,
    { State.reset with port := ⟨some ⟨some 4, 0, [0, 0, 0, 0], false, false⟩, []⟩ }, _, rfl, rfl, rfl, by decide⟩

/-- The part with a CONFIGURE ATTENTION of the flags given at the head of the queue and an attention part. -/
def attending (flags : Byte) (a : Attention) : State :=
  { queued (request 0x2A flags [0x0F, 0x3F, 10]) .ok with attention := a }

/-- CONFIGURE ATTENTION with and without QUIET, its part ARMED or RAISED; a throttle timer run out. -/
theorem witness_Attention :
    (∀ a, directRequest .configureAttention ⟨request 0x2A 0 [0x0F, 0x3F, 10], none⟩ (attending 0 a))
      ∧ (∀ a, directRequest .configureAttention ⟨request 0x2A 2 [0x0F, 0x3F, 10], none⟩ (attending 2 a))
      ∧ reqQuiet (request 0x2A 0 [0x0F, 0x3F, 10]) = false ∧ reqQuiet (request 0x2A 2 [0x0F, 0x3F, 10]) = true
      ∧ ∃ s : State, s.attention.timer = some 0 ∧ 0 ≤ s.now :=
  ⟨fun _ => directRequest_queued _ rfl (by decide +kernel) (by decide +kernel),
    fun _ => directRequest_queued _ rfl (by decide +kernel) (by decide +kernel), rfl, rfl,
    { State.reset with attention := { State.reset.attention with timer := some 0 } }, rfl, Nat.le_refl _⟩

/-- ARM of a RAISED part with an urgent cause pending shows a fresh falling edge; ACK of it first leaves it ARMED. -/
theorem test_armAgain :
    let a : Attention := { State.reset.attention with pendingSet := 0x0100, raised := true, falls := 1 }
    (a.arm 0).active = true ∧ (a.arm 0).falls = 2 ∧ ((a.ack 0x0100).arm 0).active = false
      ∧ ((a.ack 0x0100).arm 0).falls = 1 := by
  decide

/-- A summary taken at CSn's fall is clocked out although a completion was posted since; the record read is that one. -/
theorem test_summaryBeforeDecoding :
    let s := { State.reset with
      port := ⟨some ⟨none, State.reset.portSummary, [], false, false⟩, []⟩
      engine := { State.reset.engine with completions := [completion0] } }
    s.portSummary ≠ State.reset.portSummary
      ∧ exec (.readCompletion .begins 0) s = .next { s with
          port := ⟨some ⟨some 2, State.reset.portSummary, completion0.bytes false, true, false⟩,
            [State.reset.portSummary]⟩ } :=
  ⟨by decide +kernel, rfl⟩

/-- A command's next state meets a test. -/
def nextIs (o : Result) (test : State → Bool) : Bool :=
  match o with
  | .next t => test t
  | .fault _ | .refused _ => false

/-- A CONFIGURE RATE that breaks the order is served as it is taken: no FLUSH QUEUE comes between. -/
theorem test_directTaking :
    nextIs (exec .requestTaking (queued (request 0x24 0 [2, 0, 54, 0, 52]) .ok))
      (fun t => t.engine.inService.isNone && t.engine.previous == .badTable && t.engine.queue.isEmpty) = true := by
  decide +kernel

theorem witness_RequestTaking :
    (malformed (request 0x0C 0 [0, 3, 1]) = false ∧ mayPark (request 0x0C 0 [0, 3, 1]) = true
        ∧ reqChain (request 0x0C 0 [0, 3, 1]) = false)
      ∧ (malformed (request 0x29 1 []) = false ∧ reqChain (request 0x29 1 []) = true)
      ∧ malformed (request 0x0C 0 [2, 0, 1]) = true ∧ malformed (request 0x0C 0 [1, 255, 1]) = false
      ∧ malformed (request 0x0D 0 []) = true := by
  decide +kernel

/-- A malformed request whose kind names a record, one whose kind names none, and one of an unknown kind. -/
theorem witness_NamesARecord :
    (namesARecord (request 0x0C 0 [2, 0, 1]) ∧ malformed (request 0x0C 0 [2, 0, 1]) = true)
      ∧ ¬ namesARecord (request 0x10 0 [8]) ∧ ¬ namesARecord (request 0x0D 0 []) := by
  unfold namesARecord
  decide +kernel

/-! ### Witnesses: record requests -/

def rawCreate : RawRequest := request 0x01 0 [0, 0, 0, 9, 0, 0, 5, 0, 7, 0, 1, 44, 4, 1]

theorem witness_Create : storeRequest .whole .create ⟨rawCreate, some 0⟩
      ((served rawCreate (base (Record.vacant 0) none)).serviceOf .request) (served rawCreate (base (Record.vacant 0) none))
    ∧ ((served rawCreate (base (Record.vacant 0) none)).feeder (feederOf (param rawCreate 4))).configured = true
    ∧ phaseSetOf (param rawCreate 8) ≠ ⟨false, false, false⟩
    ∧ (∀ j, ((served rawCreate (base (Record.vacant 0) none)).record j).state = .vacant)
    ∧ (∀ j : RecIdx, ¬ j < 0) := by
  refine ⟨storeRequest_served (by decide +kernel) rfl rfl, by decide +kernel, by decide +kernel, fun j => ?_, fun j => by simp⟩
  show ((base (Record.vacant 0) none).record j).state = .vacant
  by_cases h : j = 3
  · subst h; rw [base_self]; rfl
  · rw [base_other _ _ h]; rfl

/-- The refusals of CREATE meet their conditions: no feeder configured, an empty set, a key and an address held, a full
table. -/
theorem witness_CreateRefused :
    (State.reset.feeder 0).configured = false ∧ phaseSetOf 0 = ⟨false, false, false⟩
      ∧ (((base rec0 none).record 3).state ≠ .vacant ∧ ((base rec0 none).record 3).serviceKey = 9
        ∧ ((base rec0 none).record 3).unitAddress = 5 ∧ (base rec0 none).lineOfRecord 3 = 0)
      ∧ ∃ s : State, (∀ j, (s.record j).state ≠ .vacant ∧ (s.record j).serviceKey ≠ 8 ∧ (s.record j).unitAddress ≠ 6)
        ∧ (s.feeder 0).configured = true := by
  refine ⟨by decide +kernel, by decide, ?_, { base rec0 none with store :=
    { State.reset.store with table := Vector.replicate 512 rec0 } }, fun j => ?_, by decide +kernel⟩
  · unfold State.lineOfRecord; rw [base_self]; decide +kernel
  · simp [State.record, rec0, Record.vacant]

def rawSet (flags phase : Byte) : RawRequest := request 0x05 flags [0, 3, 1, phase, 4]

/-- SET PHASE to B of record 3 is served; the record meets every test, and each refusal is met by a record. -/
theorem witness_SetPhase (r : Record) (m : Option Move) (hg : r.generation = 1) (hs : r.state ≠ .vacant) :
    recordRequest .whole .setPhase ⟨rawSet 0 2, some 0⟩ ((served (rawSet 0 2) (base r m)).serviceOf .request) 3
      (served (rawSet 0 2) (base r m)) ∧ phaseOf (param (rawSet 0 2) 3).toNat = some .B :=
  ⟨recordRequest_served (by decide +kernel) (by decide +kernel) hg hs, by decide +kernel⟩

theorem witness_SetPhaseAccepted :
    setPhaseAccepted ⟨rawSet 0 2, some 0⟩ .B rec0 ∧ setPhaseAccepted ⟨rawSet 4 2, some 0⟩ .B rec0
      ∧ setPhaseAccepted ⟨rawSet 0 2, some 0⟩ .B queuedRec ∧ rec0.phase ≠ some .B
      ∧ setPhaseAccepted ⟨rawSet 0 2, some 0⟩ .B { rec0 with hold := some 1 }
      ∧ setPhaseAccepted ⟨rawSet 0 2, some 0⟩ .B { queuedRec with phase := some .B }
      ∧ reqWait (rawSet 4 2) = true ∧ rec0.hold = none ∧ rec0.move = none := by
  unfold setPhaseAccepted
  decide +kernel

/-- Records that SET PHASE refuses, one for each test. -/
theorem witness_SetPhaseRefused :
    ({ rec0 with state := .provisional } : Record).state ≠ .active ∧ ({ rec0 with kind := .three } : Record).kind = .three
      ∧ ({ rec0 with allowed := ⟨true, false, false⟩ } : Record).allowed.get .B = false ∧ phaseOf 0 = none
      ∧ ({ rec0 with fault := some ⟨1, 0, false⟩ } : Record).fault ≠ none
      ∧ ({ rec0 with dailyUsed := 4 } : Record).dailyBudget ≤ 4 ∧ rec0.dailyUsed < rec0.dailyBudget
      ∧ ({ rec0 with hold := some 0 } : Record).hold ≠ none := by decide

/-- The free slot, the listing and the full table that the rows of SET PHASE, RELEASE and CLEAR FAULT ask for. -/
theorem witness_Slots :
    LowestFree (served (rawSet 0 2) (base rec0 none)) 0 ∧ (served (rawSet 0 2) (base rec0 none)).listed 3 = false
      ∧ (∀ k, (full (base rec0 none)).slot k ≠ none)
      ∧ ({ base rec0 none with sched := { State.reset.sched with waitingList := [⟨3, 4⟩] } } : State).listed 3 = true :=
  ⟨(base_lowest rec0 none).1 rfl, rfl, full_slot _, rfl⟩

def rawFind : RawRequest := request 0x02 0 [0, 0, 0, 9, 0, 0, 0, 255, 255, 0, 0, 0, 0, 0, 0]

theorem witness_Reads :
    storeRequest .whole .find ⟨rawFind, some 0⟩ ((served rawFind (base rec0 none)).serviceOf .request)
        (served rawFind (base rec0 none))
      ∧ matchesFind rawFind ((served rawFind (base rec0 none)).record 3) 3 = true
      ∧ (∀ j, j < 3 → matchesFind rawFind ((served rawFind (base rec0 none)).record j) j = false)
      ∧ (∀ j, matchesFind rawFind ((served rawFind State.reset).record j) j = false)
      ∧ recordRequest .whole .read ⟨request 0x03 0 [0, 3, 1, 1], some 0⟩
          ((served (request 0x03 0 [0, 3, 1, 1]) (base rec0 none)).serviceOf .request) 3
          (served (request 0x03 0 [0, 3, 1, 1]) (base rec0 none))
      ∧ directRequest .readSheet ⟨request 0x11 0 [7], none⟩ (queued (request 0x11 0 [7]) .ok)
      ∧ directRequest .readBatch ⟨request 0x1B 0 [63], none⟩ (queued (request 0x1B 0 [63]) .ok)
      ∧ directRequest .readLine ⟨request 0x23 0 [1], none⟩ (queued (request 0x23 0 [1]) .ok) := by
  refine ⟨storeRequest_served (by decide +kernel) rfl rfl, ?_, fun j hj => ?_, fun j => ?_,
    recordRequest_served (by decide +kernel) (by decide +kernel) rfl (by decide),
    directRequest_queued _ rfl (by decide +kernel) (by decide +kernel),
    directRequest_queued _ rfl (by decide +kernel) (by decide +kernel),
    directRequest_queued _ rfl (by decide +kernel) (by decide +kernel)⟩
  · show matchesFind rawFind ((base rec0 none).record 3) 3 = true
    rw [base_self]; decide +kernel
  · show matchesFind rawFind ((base rec0 none).record j) j = false
    rw [base_other _ _ (by intro h; subst h; exact absurd hj (by decide))]; rfl
  · show matchesFind rawFind (State.reset.record j) j = false
    simp [State.record, State.reset, matchesFind, Record.vacant]

/-- Stale handles: generation 0, another generation, a VACANT record. -/
theorem witness_StaleHandle :
    storeRequest .whole .hold ⟨request 0x07 0 [0, 3, 0, 5], some 0⟩
        ((served (request 0x07 0 [0, 3, 0, 5]) (base rec0 none)).serviceOf .request)
        (served (request 0x07 0 [0, 3, 0, 5]) (base rec0 none))
      ∧ (reqHandle (request 0x07 0 [0, 3, 0, 5])).generation = 0
      ∧ (reqHandle (request 0x07 0 [0, 3, 2, 5])).generation ≠ rec0.generation
      ∧ (State.reset.record (reqHandle (request 0x07 0 [0, 3, 1, 5])).index).state = .vacant := by
  refine ⟨storeRequest_served (by decide +kernel) rfl rfl, by decide +kernel, by decide +kernel, ?_⟩
  simp [State.record, State.reset, Record.vacant]

/-- AMEND of every setting of a record with a running deadline; and its two refusals. -/
theorem witness_Amend :
    let r := { rec0 with deadlineDue := some 3000 }
    let raw := request 0x04 0 [0, 3, 1, 31, 7, 1, 0, 60, 5, 0]
    recordRequest .whole .amend ⟨raw, some 0⟩ ((served raw (base r none)).serviceOf .request) 3 (served raw (base r none))
      ∧ (phaseSetOf (param raw 4)).get .A = true ∧ inRange 10 65535 (paramNat raw 6 2) = 60
      ∧ (3000 + 10 * 60 - 10 * r.deadlineInterval = 600 ∧ 600 - 600 ≤ State.reset.now)
      ∧ (phaseSetOf 6).get .A = false ∧ phaseSetOf 0 = ⟨false, false, false⟩
      ∧ ({ rec0 with kind := .three } : Record).kind = .three := by
  refine ⟨recordRequest_served (by decide +kernel) (by decide +kernel) rfl (by decide), by decide +kernel, by decide +kernel,
    by decide, by decide, by decide, rfl⟩

/-- CANCEL MOVE, HOLD, RELEASE, CLEAR FAULT, CLEAR NOTICES, CONTACT and RETIRE are served for record 3, whatever its
move and fields. -/
theorem witness_RecordRequests (r : Record) (m : Option Move) (hg : r.generation = 1) (hs : r.state ≠ .vacant) :
    (∀ k ∈ [ReqKind.cancelMove, .hold, .release, .clearFault, .clearNotices, .contact, .retire],
      ∃ q v, recordRequest .whole k q v 3 (served q.raw (base r m))) := by
  intro k hk
  refine ⟨⟨request k.code 0 [0, 3, 1, 2], some 0⟩, _, recordRequest_served ?_ ?_ hg hs⟩ <;>
    (simp only [List.mem_cons, List.mem_nil_iff, or_false] at hk
     rcases hk with rfl | rfl | rfl | rfl | rfl | rfl | rfl <;> decide +kernel)

/-- The moves and fields their clauses ask for. -/
theorem witness_RecordClauses :
    QueuedAt (base queuedRec (some queuedMove)) 3 0 queuedMove
      ∧ FlyingAt (base queuedRec (some (moveUp .checking))) 3 0 (moveUp .checking)
      ∧ queuedRec.state = .active ∧ ({ rec0 with target := some ⟨.B, 4, .host⟩ } : Record).target ≠ none
      ∧ waitsWith { rec0 with target := some ⟨.B, 4, .host⟩ } ⟨.B, 4, .host⟩
      ∧ (∀ tg, ¬ waitsWith rec0 tg) ∧ ({ rec0 with hold := some 0 } : Record).hold ≠ none
      ∧ (((base rec0 none).line ((base rec0 none).lineOfRecord 3)).state ≠ .running)
      ∧ (∀ n p, (base rec0 none).park n = some p → False) := by
  refine ⟨base_queued _ rfl, base_flying _ rfl _ (by decide), rfl, by decide,
    ⟨rfl, rfl, rfl, rfl, rfl, rfl⟩, fun tg h => absurd (show (none : Option Target) = some tg from h.2.2.1) (by simp), by decide, ?_, ?_⟩
  · unfold State.lineOfRecord; rw [base_self]; decide +kernel
  · intro n p h
    have : (base rec0 none).park n = none := by simp [State.park, base, State.setRecord, State.setSlot, State.modFeeder, State.reset]
    rw [this] at h
    cases h

/-- A CONTACT served while its record's line is RUNNING. -/
theorem witness_ContactRunning :
    let s := served (request 0x0B 0 [0, 3, 1]) ((base rec0 none).modLine 0 Line.start)
    storeRequest .whole .contact ⟨request 0x0B 0 [0, 3, 1], some 0⟩ (s.serviceOf .request) s
      ∧ (s.serviceOf .request).lines[s.lineOfRecord 3] = .running := by
  exact ⟨storeRequest_served (by decide +kernel) rfl rfl, by decide +kernel⟩

/-! ### Witnesses: feeders and batches -/

theorem witness_ConfigureFeeder :
    let raw := request 0x10 0 [0, 1, 2, 3, 132, 0, 200, 0, 120, 1, 2]
    storeRequest .whole .configureFeeder ⟨raw, some 0⟩ ((served raw (base rec0 none)).serviceOf .request)
        (served raw (base rec0 none))
      ∧ ((served raw (base rec0 none)).feeder 0).configured = true
      ∧ ((served raw (base rec0 none)).feeder 0).line ≠ lineNoOf (param raw 1)
      ∧ ((base rec0 none).record 3).state ≠ .vacant ∧ ((base rec0 none).record 3).feeder = 0
      ∧ (State.reset.feeder 0).configured = false ∧ param raw 9 ≠ 0 := by
  refine ⟨storeRequest_served (by decide +kernel) rfl rfl, by decide +kernel, by decide +kernel, ?_, ?_, by decide +kernel,
    by decide +kernel⟩ <;> rw [base_self] <;> decide

/-- A requested enable off with the balancer OFF already and a QUEUED move of origin BALANCER (log 19). -/
theorem witness_ConfigureFeederOff :
    let raw := request 0x10 0 [0, 0, 2, 3, 132, 0, 200, 0, 120, 0, 2]
    let s := base { queuedRec with target := some ⟨.B, 2, .balancer⟩ } (some { queuedMove with origin := .balancer })
    storeRequest .whole .configureFeeder ⟨raw, some 0⟩ ((served raw s).serviceOf .request) (served raw s)
      ∧ ((served raw s).feeder 0).line = lineNoOf (param raw 1) ∧ param raw 9 = 0
      ∧ ((served raw s).feeder 0).state = .off ∧ MoveTableLaw (served raw s) :=
  ⟨storeRequest_served (by decide +kernel) rfl rfl, by decide +kernel, by decide +kernel, by decide +kernel,
    base_moveTableLaw rfl rfl rfl rfl rfl⟩

/-- A feeder with 30.0 A between its heaviest and lightest phase, over a threshold of 20.0 A, and one in balance. -/
def uneven (st : BalState) : Feeder :=
  { Feeder.reset with configured := true, enable := true, sum := ⟨300, 0, 0⟩, state := st, timer := some 0 }

theorem witness_FeederStates :
    (uneven .watching).above = true ∧ (uneven .resting).above = true ∧ ({ uneven .resting with sum := ⟨200, 0, 0⟩ } : Feeder).above = false
      ∧ (uneven .acting).state = .acting ∧ (∀ st, (uneven st).timer = some 0) :=
  ⟨by decide, by decide, by decide, rfl, fun _ => rfl⟩

/-- An importer of 12.0 A on the heaviest phase. -/
def candidate : Record := { rec0 with current := ⟨120, 0, 0⟩ }

theorem witness_Candidate :
    isCandidate 0 0 candidate ∧ qualifiesAs (uneven .watching) candidate true .B 60
      ∧ ¬ isCandidate 0 0 { candidate with stale := true } := by
  refine ⟨⟨rfl, rfl, rfl, rfl, by decide, rfl, rfl, rfl, rfl, fun d h => ?_, by decide⟩, ⟨by decide, by decide, ?_, rfl⟩, ?_⟩
  · exact absurd (show (none : Option Nat) = some d from h) (by simp)
  · exact Or.inl ⟨rfl, by decide, by decide, by decide⟩
  · intro h; exact absurd h.2.2.2.1 (by decide)

/-- An operation in progress, overtaken by a field reset, comes to its end. -/
theorem opened_overtaken {want : Claim → Bool} {c : Claim} (h : want c = true) (s : State) :
    let v : Service := { service c s with passed := true, overtaken := true, next := some 0 }
    let t : State := { s with store := { s.store with inProgress := some v } }
    opened .ends want t = some (v, t.freeStore) := by
  have : (service c s).work = .claim c := by unfold service State.serviceOf; cases c <;> rfl
  simp [opened, Service.serves, this, h]

/-- A selection served: with its mark and the spread above the threshold, and without. -/
theorem witness_Selection (st : BalState) (pending : Bool) :
    let s := (base candidate none).modFeeder 0 (fun _ => { uneven st with selectionPending := pending })
    opened .whole (· == .selection 0) (claimed (.selection 0) s) =
        some ((claimed (.selection 0) s).serviceOf (.selection 0),
          ((claimed (.selection 0) s).take ⟨.selection 0, 1⟩).freeStore)
      ∧ ((claimed (.selection 0) s).serviceOf (.selection 0)).passed = pending
      ∧ ((claimed (.selection 0) s).serviceOf (.selection 0)).overtaken = false
      ∧ LowestFree (claimed (.selection 0) s) 0 := by
  intro s
  refine ⟨opened_claimed rfl rfl rfl, ?_, rfl, (base_lowest candidate none).1 rfl⟩
  show (s.feeder 0).selectionPending = pending
  rw [show s.feeder 0 = { uneven st with selectionPending := pending } from State.feeder_modFeeder_self 0 _ _]

/-- The batch of one entry for record 3. -/
def entry0 : Entry := ⟨⟨3, 1⟩, .B, .pending⟩
def batch0 (st : BatchState) (e : Entry) : Batch :=
  { Batch.reset with
    entries := [e], state := st, waveSize := some 1, settle := some 5, waveNumber := 1, waveFirst := some 0,
    waveLast := some 0, next := some 0, examinationPending := true, settleDue := some 0 }

theorem witness_StageEntry :
    let raw := request 0x18 0 [0, 3, 1, 2]
    storeRequest .whole .stageEntry ⟨raw, some 0⟩ ((served raw (base rec0 none)).serviceOf .request)
        (served raw (base rec0 none))
      ∧ reqHandle raw = ⟨3, 1⟩ ∧ phaseOf (param raw 3).toNat = some .B ∧ rec0.allowed.get .B = true
      ∧ ((served raw (base rec0 none)).serviceOf .request).batch = .empty
      ∧ (batch0 .staging entry0).state = .staging ∧ (∃ e ∈ (batch0 .staging entry0).entries, e.handle.index = 3)
      ∧ 64 ≤ (List.replicate 64 entry0).length ∧ ¬ 64 ≤ (List.replicate 63 entry0).length :=
  ⟨storeRequest_served (by decide +kernel) rfl rfl, by decide +kernel, by decide +kernel, rfl, rfl, rfl,
    ⟨entry0, by decide, rfl⟩, by simp, by simp⟩

/-- START BATCH and CANCEL BATCH served with the batch in each state, and a settle that has run out. -/
theorem witness_BatchRequests (st : BatchState) :
    let s := (base queuedRec (some queuedMove)).modBatch (fun _ => batch0 st entry0)
    storeRequest .whole .startBatch ⟨request 0x19 0 [1, 0, 5, 0, 3], some 0⟩
        ((served (request 0x19 0 [1, 0, 5, 0, 3]) s).serviceOf .request) (served (request 0x19 0 [1, 0, 5, 0, 3]) s)
      ∧ storeRequest .whole .cancelBatch ⟨request 0x1A 0 [], some 0⟩
        ((served (request 0x1A 0 []) s).serviceOf .request) (served (request 0x1A 0 []) s)
      ∧ ((served (request 0x1A 0 []) s).serviceOf .request).batch = st
      ∧ ((served (request 0x1A 0 []) s).serviceOf .request).overtaken = false
      ∧ (batch0 st entry0).settleDue = some 0 ∧ (batch0 st entry0).waveLast = some 0 :=
  ⟨storeRequest_served (by decide +kernel) rfl rfl, storeRequest_served (by decide +kernel) rfl rfl, rfl, rfl, rfl, rfl⟩

/-- A CANCEL BATCH in progress that a field reset has overtaken: the entry ABORTED, its move of origin BATCH still
QUEUED. -/
theorem witness_CancelOvertaken :
    let m := { queuedMove with origin := .batch, enqueuedBy := some (.batch 0) }
    let s := (base queuedRec (some m)).modBatch (fun _ => { batch0 .ended { entry0 with result := .aborted } with
      next := none, examinationPending := false, settleDue := none })
    let v : Service := { service .request s with batch := .running, overtaken := true }
    let t : State := { s with
      engine := { s.engine with inService := some ⟨request 0x1A 0 [], some 0⟩ }
      store := { s.store with inProgress := some v } }
    storeRequest .ends .cancelBatch ⟨request 0x1A 0 [], some 0⟩ v t ∧ v.batch = .running ∧ v.overtaken = true
      ∧ MoveTableLaw t ∧ StagingLaw t ∧ QueuedAt t 3 0 m ∧ m.origin = .batch
      ∧ ∃ e ∈ t.batch.entries, e.result = .aborted ∧ e.handle.index = 3 := by
  intro m s v t
  refine ⟨⟨rfl, by decide +kernel, t.freeStore, rfl⟩, rfl, rfl, ?_, ⟨by decide, by decide⟩,
    ⟨?_, (base_slot _ _).1, rfl, rfl⟩, rfl, ⟨_, List.mem_singleton.mpr rfl, rfl, rfl⟩⟩
  · exact (base_moveTableLaw rfl rfl rfl rfl rfl : MoveTableLaw (base queuedRec (some m)))
  · have : t.record 3 = queuedRec := base_self queuedRec (some m)
    rw [this]
    rfl

/-- A QUEUED move of an entry IN_MOVE, the last of its wave, among moves ended together; and the batch it leaves. -/
theorem witness_BatchToldOf :
    let e : Entry := { entry0 with result := .inMove }
    let m := { queuedMove with origin := .batch, enqueuedBy := some (.batch 0) }
    let s := (base queuedRec (some m)).modBatch (fun _ => { batch0 .running e with next := none })
    let c : Batch := { s.batch with entries := [{ e with result := .failed .budgetSpent }] }
    s.slot 0 = some m ∧ s.batch.entries[0]? = some e ∧ e.handle = ⟨m.index, m.generation⟩ ∧ inWave s.batch 0
      ∧ c.entries[0]? = some { e with result := entryResultOf .budgetSpent }
      ∧ c.entries.length = s.batch.entries.length :=
  ⟨(base_slot _ _).1, rfl, rfl, ⟨0, 0, rfl, rfl, Nat.le_refl _, Nat.le_refl _⟩, rfl, rfl⟩

/-- A wave examination served with its mark, of an entry that passes every test and of ones that fail. -/
theorem witness_WaveExamination (r : Record) (m : Option Move) :
    let s := (base r m).modBatch (fun _ => batch0 .running entry0)
    opened .whole (· == .wave) (claimed .wave s) =
        some ((claimed .wave s).serviceOf .wave, ((claimed .wave s).take ⟨.wave, 1⟩).freeStore)
      ∧ ((claimed .wave s).serviceOf .wave).passed = true ∧ ((claimed .wave s).serviceOf .wave).next = some 0
      ∧ (batch0 .running entry0).entries[0]? = some entry0 ∧ (batch0 .running entry0).waveFirst = some 0
      ∧ StagingLaw (claimed .wave s) := by
  refine ⟨opened_claimed rfl rfl rfl, rfl, rfl, rfl, rfl, ?_, ?_⟩
  · show (batch0 .running entry0).entries.length ≤ 64; decide
  · show ((batch0 .running entry0).entries.map (fun e => e.handle.index)).Nodup; decide

/-- Two entries, of which the first passes every test: it is placed; with no slot free the wave stalls at it; and the same
examination overtaken by a field reset. -/
theorem witness_WaveOfTwo :
    let b := { batch0 .running entry0 with entries := [entry0, ⟨⟨4, 1⟩, .C, .pending⟩], waveLast := some 1 }
    let s := (base rec0 none).modBatch (fun _ => b)
    passing s 0 1 = [0] ∧ (freeSlots s).head? = some 0 ∧ freeSlots (full s) = [] ∧ StagingLaw s
      ∧ (inWave b 0 ∧ inWave b 1) ∧ opened .ends (· == .wave)
        { s with
          store := { s.store with
            inProgress := some { service .wave s with passed := true, overtaken := true, next := some 0 } } } ≠ none := by
  refine ⟨?_, ?_, ?_, ⟨?_, ?_⟩, ⟨⟨0, 1, rfl, rfl, by decide, by decide⟩, ⟨0, 1, rfl, rfl, by decide, by decide⟩⟩, ?_⟩
  · decide +kernel
  · decide +kernel
  · decide +kernel
  · show 2 ≤ 64; decide
  · show (([entry0, ⟨⟨4, 1⟩, .C, .pending⟩] : List Entry).map (fun e => e.handle.index)).Nodup; decide
  · rw [opened_overtaken rfl]; exact Option.some_ne_none _

/-- A move enqueued by BATCH for the entry 0 IN_MOVE, the last of its wave: its end ends the wave, and in CANCELLING the
batch; and one enqueued by BALANCER for the record a feeder is ACTING on. -/
theorem witness_EndTold :
    let e : Entry := { entry0 with result := .inMove }
    let m := { moveUp .checking with enqueuedBy := some (.batch 0) }
    (∀ st, (batch0 st e).entries[0]? = some e) ∧ e.handle = ⟨m.index, m.generation⟩ ∧ m.enqueuedBy = some (.batch 0)
      ∧ (batch0 .running e).waveLast = some ((batch0 .running e).entries.length - 1)
      ∧ ({ uneven .acting with lastHandle := some ⟨3, 1⟩ } : Feeder).lastHandle = some ⟨m.index, m.generation⟩ :=
  ⟨fun _ => rfl, rfl, rfl, rfl, rfl⟩

theorem witness_Examined :
    examinedAs (base rec0 none) entry0 none
      ∧ examinedAs (base { rec0 with phase := some .B } none) entry0 (some .already)
      ∧ examinedAs (base { rec0 with dailyUsed := 4 } none) entry0 (some (.refused .budgetSpent))
      ∧ examinedAs (base { rec0 with generation := 2 } none) entry0 (some (.refused .staleHandle)) := by
  simp [examinedAs, State.names, entry0, base_self, rec0, Record.vacant, ThreeOf.get]

/-- The laws hold of a small state with a move in flight, as the statements that rest on them ask. -/
theorem witness_MoveTableLaw : MoveTableLaw State.reset := by
  refine ⟨fun i k h => ?_, fun k m h => ?_, fun i _ => ?_, fun f => ?_⟩
  · simp [State.record, State.reset, Record.vacant] at h
  · simp [State.slot, State.reset] at h
  · simp [State.record, State.reset, Record.vacant]
  · simp [State.reset]

/-- The laws of targets hold of a small state whose record 3 has a QUEUED move to phase B. -/
theorem witness_TargetLaw : TargetLaw (base queuedRec (some queuedMove)) := by
  have vac : ∀ i : RecIdx, i ≠ 3 → (base queuedRec (some queuedMove)).record i = Record.vacant 0 := fun i => base_other _ _
  refine ⟨fun i h => ?_, fun i h => ?_, fun k m hk _ => ?_, fun i tg h => ?_⟩
  · by_cases hi : i = 3
    · subst hi; rw [base_self] at h; exact absurd h (by decide)
    · rw [vac i hi]; rfl
  · by_cases hi : i = 3
    · subst hi; rw [base_self] at h; exact absurd h (by decide)
    · rw [vac i hi]; rfl
  · by_cases h0 : k = 0
    · subst h0
      rw [(base_slot _ _).1] at hk
      cases hk
      exact ⟨⟨.B, 4, .host⟩, by rw [show queuedMove.index = 3 from rfl, base_self]; rfl, rfl⟩
    · rw [(base_slot _ _).2 k h0] at hk; cases hk
  · by_cases hi : i = 3
    · subst hi
      rw [base_self] at h ⊢
      cases h
      exact ⟨by decide, fun _ => by decide⟩
    · rw [vac i hi] at h; cases h

/-- A waiting list in its order, and the record of its last entry told again with a higher priority. -/
theorem witness_WaitingListLaw :
    let s : State := { base rec0 none with sched := { State.reset.sched with waitingList := [⟨4, 6⟩, ⟨1, 4⟩, ⟨3, 4⟩] } }
    WaitingListLaw s ∧ (s.enlist 3 6).sched.waitingList = [⟨3, 6⟩, ⟨4, 6⟩, ⟨1, 4⟩]
      ∧ Enlisted 3 6 s (s.enlist 3 6) :=
  ⟨⟨by simp [WaitsAhead], by decide⟩, by decide, State.enlist_enlisted 3 6 _⟩

theorem witness_HoldOrderLaw : HoldOrderLaw State.reset := by
  intro l
  rw [reset_hold rfl l]
  exact ⟨List.Pairwise.nil, fun h hh => by cases hh⟩

theorem witness_Laws : IdentityLaw State.reset ∧ StoppedLineLaw State.reset ∧ CapacityLaw State.reset ∧ RateLaw State.reset
    ∧ StagingLaw State.reset ∧ step State.reset = .next State.reset := by
  refine ⟨⟨fun i h => ?_, fun i j _ h => ?_⟩, fun l _ => ?_, ⟨by decide, by decide⟩, ?_, ⟨by decide, by decide⟩, rfl⟩
  · simp [State.record, State.reset, Record.vacant] at h
  · simp [State.record, State.reset, Record.vacant] at h
  · simp [State.line, State.reset, Line.reset]
  · unfold RateLaw; decide +kernel

theorem witness_TallyLaw : TallyLaw State.reset := by
  have hv : ∀ f : FeederNo, (Record.vacant 0).standingIn f = .absent := by
    intro f; unfold Record.standingIn Record.standing; split <;> rfl
  have hm : ∀ {α : Type} (g : Record → α), State.reset.store.table.toList.map g = List.replicate 512 (g (Record.vacant 0)) :=
    fun g => by rw [show State.reset.store.table = Vector.replicate 512 (Record.vacant 0) from rfl]; simp only [Vector.toList_replicate, List.map_replicate]
  have h0 : ∀ n : Nat, (List.replicate n (0 : Int)).sum = 0 := by
    intro n; induction n with
    | zero => rfl
    | succ n ih => simp [List.replicate_succ, ih]
  intro f
  have hf : State.reset.feeder f = Feeder.reset := by simp [State.feeder, State.reset]
  rw [hf]
  refine ⟨fun p => ⟨?_, ?_⟩, ?_⟩
  · rw [hm, hv]; cases p <;> exact (h0 512).symm
  · rw [hm, hv]; cases p <;> decide +kernel
  · rw [hm, hv]; decide +kernel

/-! ### Witnesses: lines, settings and the clock -/

theorem witness_DirectRequests (ln : Line) (f : Feeder) :
    ∀ k ∈ [ReqKind.configureLine, .lineStart, .lineStop, .configureRate, .configureSurvey, .setTime],
      ∃ q s, directRequest k q s ∧ s.line 0 = ln ∧ s.feeder 0 = f := by
  intro k hk
  refine ⟨⟨request k.code 0 [0], none⟩,
    ((queued (request k.code 0 [0]) .ok).modFeeder 0 (fun _ => f)).modLine 0 (fun _ => ln),
    directRequest_queued _ rfl ?_ ?_, State.line_modLine_self _ _ _, ?_⟩
  · simp only [List.mem_cons, List.mem_nil_iff, or_false] at hk
    rcases hk with rfl | rfl | rfl | rfl | rfl | rfl <;> decide +kernel
  · simp only [List.mem_cons, List.mem_nil_iff, or_false] at hk
    rcases hk with rfl | rfl | rfl | rfl | rfl | rfl <;> decide +kernel
  · rw [State.feeder_modLine, State.feeder_modFeeder_self]

/-- Entry 2 of the Rate Table with 109 sample clocks: 110 keeps the order, 54 and 218 break it. -/
theorem witness_ConfigureRate :
    (∀ l, (State.reset.line l).state ≠ .running) ∧ State.reset.maxStart 1 = 54 ∧ State.reset.maxStart 3 = 218
      ∧ ∃ s : State, (s.line 0).state = .running :=
  ⟨by decide +kernel, by decide +kernel, by decide +kernel,
    State.reset.modLine 0 Line.start, by decide +kernel⟩

/-- A line listening for an answer to a MOVE, its slot in place. -/
def txn0 (kind : TxnKind) (slot : Option SlotNo) : Txn := ⟨kind, 3, 1, 5, 104, slot, 7⟩
def lineAt (a : Activity) (t : Txn) (rx : Receiver) : Line :=
  { Line.reset with
    state := .running, activity := a, out := some t, attemptsLeft := 1, timer := .running 500000, window := 500000, rx := rx }
def onLine (ln : Line) (s : State) : State := s.modLine 0 (fun _ => ln)

theorem onLine_line (ln : Line) (s : State) : (onLine ln s).line 0 = ln := State.line_modLine_self 0 _ _

theorem witness_Counts :
    864000 ∣ ((863999#32 : Word32) + 1).toNat ∧ ¬ 864000 ∣ ((0#32 : Word32) + 1).toNat
      ∧ 864000 ∣ ((4294967295#32 : Word32) + 1).toNat
      ∧ opened .whole (· == .dayRollover) (claimed .dayRollover State.reset) ≠ none := by
  refine ⟨by decide, by decide, by decide, ?_⟩
  rw [opened_claimed rfl rfl rfl]; exact Option.some_ne_none _

/-- The next advance reaches the cool-down of a record with a QUEUED move and the hunt due of a PROVISIONAL one. -/
theorem witness_Advance :
    ((base { queuedRec with coolDown := some 1 } (some queuedMove)).record 3).coolDown = some (State.reset.now + 1)
      ∧ QueuedAt (base { queuedRec with coolDown := some 1 } (some queuedMove)) 3 0 queuedMove
      ∧ ({ rec0 with state := .provisional, huntDue := some 1 } : Record).huntDue = some (State.reset.now + 1)
      ∧ nextIs (exec .timeCountAdvance (base { queuedRec with coolDown := some 1 } (some queuedMove)))
          (fun t => t.time.reached == [.coolDown 3]) = true :=
  ⟨by rw [base_self]; rfl, base_queued _ rfl, rfl, by decide +kernel⟩

theorem witness_Deadline :
    let r := { rec0 with deadlineDue := some 0 }
    ((base r none).record 3).deadlineDue = some 0 ∧ 0 ≤ (base r none).now
      ∧ ¬ Claimed (base r none) (.deadline ⟨3, 1⟩ 0) ∧ Claimed (claimed (.deadline ⟨3, 1⟩ 0) (base r none)) (.deadline ⟨3, 1⟩ 0)
      ∧ opened .whole (fun c => match c with | .deadline h _ => h.index == 3 | _ => false)
          (claimed (.deadline ⟨3, 1⟩ 0) (base r none)) =
        some ((claimed (.deadline ⟨3, 1⟩ 0) (base r none)).serviceOf (.deadline ⟨3, 1⟩ 0),
          ((claimed (.deadline ⟨3, 1⟩ 0) (base r none)).take ⟨.deadline ⟨3, 1⟩ 0, 1⟩).freeStore)
      ∧ r.stale = false ∧ r.state = .active := by
  refine ⟨by rw [base_self], Nat.zero_le _, ?_, ⟨_, List.mem_singleton.mpr rfl, rfl⟩, opened_claimed rfl rfl rfl, rfl, rfl⟩
  rintro ⟨w, hw, _⟩
  simp [base, State.setRecord, State.setSlot, State.modFeeder, State.reset] at hw

theorem witness_Expiries :
    (∃ s : State, Reached.coolDown 3 ∈ s.time.reached ∧ Reached.huntDue 4 ∈ s.time.reached)
      ∧ ((base queuedRec (some { moveUp .switching with confirmDue := some 0 })).slot 0 =
          some { moveUp .switching with confirmDue := some 0 })
      ∧ (moveUp .switching).closed = false ∧ (∃ s : State, s.survey.enable = true ∧ s.survey.timer = some 0) :=
  ⟨⟨{ State.reset with time := ⟨0, 0, [.coolDown 3, .huntDue 4]⟩ }, by decide, by decide⟩, (base_slot _ _).1, rfl,
    { State.reset with survey := ⟨true, 60, some 0⟩ }, rfl, rfl⟩

/-- A pick to make with a CHECK due, and one with none. -/
theorem witness_LinePick :
    let ln := { Line.reset with state := .running, pickWanted := true, bindings := [⟨0, 5, 2⟩] }
    let m := { moveUp .checking with checkDue := some 0 }
    let s := onLine ln (base { queuedRec with move := some 0 } (some m))
    checkDueAt s 0 0 m 0 ⟨0, 5, 2⟩
      ∧ (∀ k m' d b, checkDueAt s 0 k m' d b → (0 : SlotNo) ≤ k)
      ∧ ((s.line 0).state = .running ∧ (s.line 0).activity = .idle ∧ (s.line 0).receiveHold.length < 2
          ∧ (s.line 0).pickWanted = true)
      ∧ (∀ k m d b, ¬ checkDueAt (onLine ln (base rec0 none)) 0 k m d b) := by
  refine ⟨⟨(base_slot _ _).1, rfl, rfl, rfl, by rw [onLine_line]; rfl⟩, fun k m' d b _ => Fin.zero_le k, ?_, ?_⟩
  · rw [onLine_line]; decide
  · intro k m d b h
    have hs : (base rec0 none).slot k = some m := h.1
    by_cases hk : k = 0
    · subst hk; rw [(base_slot _ _).1] at hs; cases hs
    · rw [(base_slot _ _).2 k hk] at hs; cases hs

theorem witness_Admission :
    let ln := { Line.reset with state := .running, activity := .picking, run := 1 }
    let s := claimed (.admission 0 1) (onLine ln (base queuedRec (some queuedMove)))
    opened .whole (fun c => match c with | .admission x _ => x == 0 | _ => false) s =
        some (s.serviceOf (.admission 0 1), (s.take ⟨.admission 0 1, 1⟩).freeStore)
      ∧ (s.serviceOf (.admission 0 1)).passed = true ∧ inItsRun s 0 1
      ∧ scansTo s 0 s.moveQueue 0 queuedMove [] ∧ admittedBut s 0 queuedMove .A ∧ withinBudget s queuedMove := by
  intro ln s
  have hr : s.record queuedMove.index = queuedRec := base_self queuedRec (some queuedMove)
  refine ⟨opened_claimed rfl rfl rfl, by rfl, ?_, ⟨[], by decide +kernel, fun x h => absurd h (by simp)⟩,
    ⟨?_, ?_, Or.inr fun d h => ?_, by rw [hr]; rfl⟩, Or.inr (by rw [hr]; decide)⟩
  · show ((onLine ln _).line 0).state = .running ∧ ((onLine ln _).line 0).run = 1
    rw [onLine_line]; exact ⟨rfl, rfl⟩
  · unfold State.lineOfRecord; rw [hr]; decide +kernel
  · simp only [hr]; exact Nat.zero_lt_one
  · rw [hr] at h; exact absurd (show (none : Option Nat) = some d from h) (by simp)

/-- The move of record 4, in slot 1 and ahead of record 3's. -/
def aheadRec : Record := { queuedRec with serviceKey := 8, unitAddress := 6, move := some 1 }
def aheadMove : Move := { queuedMove with index := 4, priority := 5 }
def pair (r : Record) : State := ((base queuedRec (some queuedMove)).setRecord 4 r).setSlot 1 (some aheadMove)

/-- The head of the queue passed over, its phase unknown; the head with its budget spent; and both on another line. -/
theorem witness_AdmissionScan :
    let unknown := pair { aheadRec with phase := none }
    let spent := pair { aheadRec with dailyUsed := 4 }
    scansTo unknown 0 unknown.moveQueue 0 queuedMove []
      ∧ scansTo spent 0 spent.moveQueue 1 aheadMove [(0, queuedMove)]
      ∧ ¬ withinBudget spent aheadMove ∧ scansTo spent 0 [(0, queuedMove)] 0 queuedMove []
      ∧ (∀ x ∈ spent.moveQueue, passedOver spent 1 x.2)
      ∧ (∀ l, ∀ b ∈ (spent.line l).bindings, b.slot ≠ 1) := by
  intro unknown spent
  have h4 : ∀ r, (pair r).record 4 = r := fun r => State.record_setRecord_self 4 r _
  have q1 : unknown.moveQueue = [(1, aheadMove), (0, queuedMove)] := by decide +kernel
  have q2 : spent.moveQueue = [(1, aheadMove), (0, queuedMove)] := by decide +kernel
  refine ⟨⟨[(1, aheadMove)], q1, fun x h => ?_⟩, ⟨[], q2, fun x h => absurd h (by simp)⟩, fun h => ?_,
    ⟨[], rfl, fun x h => absurd h (by simp)⟩, fun x h => Or.inl ?_, fun l b h => ?_⟩
  · cases List.mem_singleton.mp h
    exact Or.inr (Or.inr (Or.inr (by rw [show aheadMove.index = 4 from rfl, h4])))
  · rcases h with h | h
    · cases h
    · rw [show aheadMove.index = 4 from rfl, h4] at h
      exact absurd h (by decide)
  · rw [q2] at h
    simp only [List.mem_cons, List.mem_nil_iff, or_false] at h
    rcases h with rfl | rfl
    · decide +kernel
    · decide +kernel
  · have : (spent.line l).bindings = [] := by
      simp [spent, pair, State.line, base, State.setRecord, State.setSlot, State.modFeeder, State.reset, Line.reset]
    rw [this] at h; cases h

/-- The laws of the Move Table hold of the state with two QUEUED moves. -/
theorem witness_PairLaw : MoveTableLaw (pair { aheadRec with dailyUsed := 4 }) := by
  have h4 : (pair { aheadRec with dailyUsed := 4 }).record 4 = { aheadRec with dailyUsed := 4 } :=
    State.record_setRecord_self 4 _ _
  have hr : ∀ i, i ≠ 4 → (pair { aheadRec with dailyUsed := 4 }).record i = (base queuedRec (some queuedMove)).record i :=
    fun i h => State.record_setRecord_other (fun e => h e.symm) _ _
  have s1 : (pair { aheadRec with dailyUsed := 4 }).slot 1 = some aheadMove := State.slot_setSlot_self 1 _ _
  have hs : ∀ k, k ≠ 1 → (pair { aheadRec with dailyUsed := 4 }).slot k = (base queuedRec (some queuedMove)).slot k :=
    fun k h => State.slot_setSlot_other (fun e => h e.symm) _ _
  have hb : MoveTableLaw (base queuedRec (some queuedMove)) := base_moveTableLaw rfl rfl rfl rfl rfl
  refine ⟨fun i k h => ?_, fun k m h => ?_, fun i h => ?_, fun f => ?_⟩
  · by_cases hi : i = 4
    · subst hi; rw [h4] at h; cases h; exact ⟨_, s1, rfl⟩
    · rw [hr i hi] at h
      have hk : k ≠ 1 := by
        intro hk; subst hk
        by_cases h3 : i = 3
        · subst h3; rw [base_self] at h; cases h
        · rw [base_other _ _ h3] at h; cases h
      rw [hs k hk]; exact hb.1 i k h
  · by_cases hk : k = 1
    · subst hk; rw [s1] at h; cases h
      rw [show aheadMove.index = 4 from rfl, h4]; exact ⟨rfl, rfl, Or.inl rfl⟩
    · rw [hs k hk] at h
      have hm : m.index ≠ 4 := by
        by_cases h0 : k = 0
        · subst h0; rw [(base_slot _ _).1] at h; cases h; decide
        · rw [(base_slot _ _).2 k h0] at h; cases h
      rw [hr _ hm]; exact hb.2.1 k m h
  · by_cases hi : i = 4
    · subst hi; rw [h4] at h; cases h
    · rw [hr i hi] at h ⊢; exact hb.2.2.1 i h
  · have h0 : (pair { aheadRec with dailyUsed := 4 }).sched.inFlight[f] = 0 := by
      simp [pair, base, State.setRecord, State.setSlot, State.modFeeder, State.reset]
    rw [h0]
    refine (List.countP_eq_zero.mpr fun o ho => ?_).symm
    have ho : o ∈ (((List.replicate 32 (none : Option Move)).set 0 (some queuedMove)).set 1 (some aheadMove)) := ho
    have : o = none ∨ o = some queuedMove ∨ o = some aheadMove := by
      rcases List.mem_or_eq_of_mem_set ho with h | h
      · rcases List.mem_or_eq_of_mem_set h with h | h
        · exact Or.inl (List.eq_of_mem_replicate h)
        · exact Or.inr (Or.inl h)
      · exact Or.inr (Or.inr h)
    rcases this with rfl | rfl | rfl <;> simp [queuedMove, aheadMove, move0, enqueued]

/-- The laws of the Move Table do not read daily used. -/
theorem moveTableLaw_dailyUsed {s : State} {i : RecIdx} (n : Nat) (h : MoveTableLaw s)
    (hv : (s.record i).state ≠ .vacant) : MoveTableLaw (s.modRecord i (fun r => { r with dailyUsed := n })) := by
  have hs : ∀ k, (s.modRecord i (fun r => { r with dailyUsed := n })).slot k = s.slot k := fun _ => rfl
  have hr : ∀ j, ∃ d, (s.modRecord i (fun r => { r with dailyUsed := n })).record j = { s.record j with dailyUsed := d }
      ∧ (j ≠ i → d = (s.record j).dailyUsed) := by
    intro j
    by_cases hj : j = i
    · subst hj; exact ⟨n, State.record_setRecord_self j _ s, fun h => absurd rfl h⟩
    · exact ⟨(s.record j).dailyUsed, State.record_setRecord_other (fun e => hj e.symm) _ s, fun _ => rfl⟩
  refine ⟨fun j k hm => ?_, fun k m hk => ?_, fun j hj => ?_, fun f => ?_⟩
  · obtain ⟨d, hd, _⟩ := hr j
    rw [hd] at hm
    exact h.1 j k hm
  · obtain ⟨d, hd, _⟩ := hr m.index
    rw [hd]
    exact h.2.1 k m hk
  · obtain ⟨d, hd, he⟩ := hr j
    rw [hd] at hj ⊢
    have hji : j ≠ i := fun e => by subst e; exact hv hj
    rw [he hji]
    exact h.2.2.1 j hj
  · have : ∀ m : Move, ((s.modRecord i (fun r => { r with dailyUsed := n })).record m.index).feeder
        = (s.record m.index).feeder := fun m => by obtain ⟨d, hd, _⟩ := hr m.index; rw [hd]
    simp only [this]
    exact h.2.2.2 f

/-- Both moves of the queue with their budgets spent: the scan ends both and comes to its end. -/
def bothSpent : State := (pair { aheadRec with dailyUsed := 4 }).modRecord 3 (fun r => { r with dailyUsed := 4 })

theorem witness_BothSpent :
    bothSpent.moveQueue = [(1, aheadMove), (0, queuedMove)] ∧ MoveTableLaw bothSpent
      ∧ (∀ x ∈ bothSpent.moveQueue, passedOver bothSpent 0 x.2 ∨ spentOn bothSpent 0 x.2)
      ∧ spentOn bothSpent 0 aheadMove ∧ spentOn bothSpent 0 queuedMove
      ∧ (∀ x, ∀ b ∈ (bothSpent.line x).bindings, b.slot ≠ 0 ∧ b.slot ≠ 1) := by
  have q : bothSpent.moveQueue = [(1, aheadMove), (0, queuedMove)] := by decide +kernel
  have h3 : bothSpent.record 3 = { queuedRec with dailyUsed := 4 } := by decide +kernel
  have h4 : bothSpent.record 4 = { aheadRec with dailyUsed := 4 } := by decide +kernel
  have a1 : spentOn bothSpent 0 aheadMove := by
    refine ⟨⟨.A, by decide +kernel, by decide +kernel, Or.inr fun d h => ?_, by decide +kernel⟩, fun h => ?_⟩
    · rw [show aheadMove.index = 4 from rfl, h4] at h; exact absurd (show (none : Option Nat) = some d from h) (by simp)
    · rcases h with h | h
      · cases h
      · rw [show aheadMove.index = 4 from rfl, h4] at h; exact absurd h (by decide)
  have a0 : spentOn bothSpent 0 queuedMove := by
    refine ⟨⟨.A, by decide +kernel, by decide +kernel, Or.inr fun d h => ?_, by decide +kernel⟩, fun h => ?_⟩
    · rw [show queuedMove.index = 3 from rfl, h3] at h; exact absurd (show (none : Option Nat) = some d from h) (by simp)
    · rcases h with h | h
      · cases h
      · rw [show queuedMove.index = 3 from rfl, h3] at h; exact absurd h (by decide)
  refine ⟨q, moveTableLaw_dailyUsed 4 witness_PairLaw (by decide +kernel), fun x h => Or.inr ?_, a1, a0, fun l b h => ?_⟩
  · rw [q] at h
    simp only [List.mem_cons, List.mem_nil_iff, or_false] at h
    rcases h with rfl | rfl
    · exact a1
    · exact a0
  · have : (bothSpent.line l).bindings = [] := by
      simp [bothSpent, pair, State.line, base, State.modRecord, State.setRecord, State.setSlot, State.modFeeder, State.reset,
        Line.reset]
    rw [this] at h; cases h

/-- Both end BUDGET_SPENT in the one admission, which then finds nothing and leaves the line IDLE. -/
theorem test_bothSpent :
    nextIs (exec (.admission .whole 0)
        (claimed (.admission 0 1) (onLine { Line.reset with state := .running, activity := .picking, run := 1 } bothSpent)))
      (fun t => (t.slot 0).isNone && (t.slot 1).isNone && (t.record 3).notices.moveFailed
        && (t.record 4).lastMove == some ⟨.budgetSpent, .host, 0⟩ && (t.line 0).activity == .idle) = true := by
  decide +kernel

/-- A FIELD RESET met by a record operation in progress, with a move in flight and a WAIT, a CONTACT, a RETIRE and a START
BATCH parked: the operation is overtaken, the CONTACT alone is completed, and SDO shows the summary and four zeros. -/
theorem test_fieldReset :
    let s := withParked (fun _ => #v[none, some (parked 0x05 (some ⟨3, 1⟩) none), some (parked 0x0B (some ⟨3, 1⟩) none),
      some (parked 0x0C (some ⟨3, 1⟩) none), some (parked 0x19 none none), none, none, none])
      (onLine { Line.reset with state := .running, run := 1 } (base queuedRec (some (moveUp .switching))))
    nextIs (exec (.fieldReset ctl) { s with store := { s.store with inProgress := some (service .wave s) } })
      (fun t => t.store.inProgress == some { service .wave s with overtaken := true }
        && t.engine.parked == s.engine.parked.set 2 none
        && t.engine.completions == [parkedCompletion (parked 0x0B (some ⟨3, 1⟩) none) .lineStopped [0, 3, 1]]
        && t.attention.pendingSet == 1 && t.port == ⟨none, [0, 0, 0, 0, 0]⟩
        && t.store.claims.map (·.claim) == [.lineStopLost 0 ⟨3, 1⟩ 7, .fieldReset]) = true := by
  decide +kernel

/-- The last attempt of a MOVE ends where the slot holds another move by then: the Move Table and the store stand, and the
line has a pick to make. -/
theorem test_exhaustedInVain :
    let t : Txn := ⟨.move, 3, 1, 5, 104, some 0, 6⟩
    let s := onLine { Line.reset with
      state := .running, activity := .listening, out := some t, timer := .running 9 } (base queuedRec (some (moveUp .offered)))
    nextIs (exec (.turnaroundTimeout 0) s)
      (fun z => z.sched == s.sched && z.store == s.store && (z.line 0).pickWanted && (z.line 0).out.isNone) = true := by
  decide +kernel

/-- CONFIGURE ATTENTION enables a cause that is pending: QUIET, the request raises ATTNn with the throttle stored. -/
theorem test_configureAttention :
    nextIs (exec .configureAttention (attending 2 { State.reset.attention with pendingSet := 0x0010, enabledSet := 0 }))
        (fun t => t.attention == ⟨0x0010, 0x0F3F, true, 10, some 10, 1⟩) = true
      ∧ nextIs (exec .configureAttention (attending 0 { State.reset.attention with raised := true }))
        (fun t => t.attention == { State.reset.attention with
          pendingSet := 1, enabledSet := 0x0F3F, throttle := 10, raised := true }) = true := by
  decide +kernel

/-- A pick lookup with a hunt due, with a record to poll, and with neither. -/
theorem witness_PickLookup (r : Record) :
    let ln := { Line.reset with state := .running, activity := .picking, run := 1, round := some 0 }
    let s := claimed (.pickLookup 0 1) (onLine ln (base r none))
    opened .whole (fun c => match c with | .pickLookup x _ => x == 0 | _ => false) s =
        some (s.serviceOf (.pickLookup 0 1), (s.take ⟨.pickLookup 0 1, 1⟩).freeStore)
      ∧ (s.serviceOf (.pickLookup 0 1)).passed = true
      ∧ (r = { rec0 with state := .provisional, huntDue := some 0 } → huntFound s 0 3)
      ∧ (r = rec0 → polledFrom s 0 0 3 ∧ ∀ j, ¬ huntFound s 0 j) := by
  intro ln s
  have h3 : s.record 3 = r := base_self r none
  have ho : ∀ j, j ≠ 3 → s.record j = Record.vacant 0 := fun j h => base_other r none h
  have hl : ∀ j, s.lineOfRecord j = 0 := by
    intro j
    unfold State.lineOfRecord
    have : ∀ f : FeederNo, (s.feeder f).line = 0 := by
      intro f
      show ((base r none).feeder f).line = 0
      by_cases hf : f = 0
      · subst hf; rw [base, State.feeder_modFeeder_self]; rfl
      · rw [base, State.feeder_modFeeder_other (fun e => hf e.symm)]; simp [State.feeder, State.setSlot, State.setRecord, State.reset, Feeder.reset]
    exact this _
  refine ⟨opened_claimed rfl rfl rfl, by rfl, fun hr => ⟨⟨by rw [h3, hr], hl 3, 0, by rw [h3, hr], Nat.zero_le _⟩, fun j hj h => ?_⟩, fun hr => ⟨⟨Nat.zero_le _, Or.inl (by rw [h3, hr]; rfl), hl 3⟩, fun j h => ?_⟩⟩
  · have := h.1; rw [ho j (Fin.ne_of_lt hj)] at this; exact absurd this (by decide)
  · have := h.1.1
    by_cases hj : j = 3
    · subst hj; rw [h3, hr] at this; exact absurd this (by decide)
    · rw [ho j hj] at this; exact absurd this (by decide)

theorem witness_Attempts :
    ((onLine (lineAt .sending (txn0 .move (some 0)) .atRest) State.reset).line 0).out = some (txn0 .move (some 0))
      ∧ (lineAt .listening (txn0 .poll none) .atRest).timer = .running 500000
      ∧ (lineAt .listening (txn0 .summon none) { Receiver.atRest with mode := .measuring }).rx.mode = .measuring
      ∧ (lineAt .listening (txn0 .poll none) { Receiver.atRest with busy := true }).rx.busy = true
      ∧ (moveUp .offered).sequence = some (txn0 .move (some 0)).sequence
      ∧ ({ lineAt .listening (txn0 .poll none) .atRest with silence := 15 } : Line).silenceLimit ≤ 16 :=
  ⟨by rw [onLine_line]; rfl, rfl, rfl, rfl, rfl, by decide⟩

/-- The waveforms of a start mark and an end mark at 104 sample clocks a bit. -/
def startMark : Wave := [104, 104, 104, 104, 312]
def endMark : Wave := [208, 104, 104, 104, 208]

theorem test_marks :
    sampleByte 104 startMark = 0xC5 ∧ sampleByte 104 endMark = 0xCA ∧ framingError 104 startMark = false
      ∧ framingError 104 endMark = false ∧ waveOk startMark = true ∧ waveOk endMark = true
      ∧ lowAt startMark 52 = true ∧ lowAt endMark 52 = true := by
  decide +kernel

/-- A frame being read at its end mark, good and from the right address or another. -/
def frame0 (address : Word16) (fn sequence : Byte) (payload : List Byte) : Frame := ⟨address, fn, sequence, payload⟩
def reading (f : Option Frame) : Receiver :=
  { Receiver.atRest with
    bitLength := 104, frame := f.map (fun f => (⟨f.body, false, false⟩ : Assembly)), busy := f.isSome }

theorem witness_Receiver :
    takenAt (lineAt .listening (txn0 .move (some 0)) (reading none)) 499999 startMark
      ∧ takenAt (lineAt .listening (txn0 .move (some 0)) (reading (some (frame0 5 0x83 7 [])))) 4160 endMark
      ∧ (⟨(frame0 5 0x83 7 []).body, false, false⟩ : Assembly).close = some (frame0 5 0x83 7 [])
      ∧ expectedAnswer .move 0x83 0 = true ∧ expectedAnswer .move 0x82 7 = false
      ∧ (frame0 5 0x83 7 []).address = (txn0 .move (some 0)).address
      ∧ (frame0 6 0x83 7 []).address ≠ (txn0 .move (some 0)).address := by
  refine ⟨⟨⟨rfl, rfl, fun h => absurd h (by decide), fun _ => ⟨500000, rfl, by decide⟩⟩, by decide +kernel⟩,
    ⟨⟨rfl, rfl, fun _ => by decide, fun h => absurd h (by decide)⟩, by decide +kernel⟩, by decide +kernel, by decide,
    by decide, rfl, by decide⟩

/-- A start bit high again before half a bit length, and a character with its stop bit low. -/
def spike : Wave := [51, 1000]
def broken : Wave := [104, 104, 104, 104, 104, 104, 520]

/-- Frames of another sequence number, with a broken CRC, short and too long; a false start; a framing error; and the
classified lead character of a hunt. -/
theorem witness_ReceiverFailures :
    (⟨(frame0 5 0x83 8 []).body, false, false⟩ : Assembly).close = some (frame0 5 0x83 8 [])
      ∧ (frame0 5 0x83 8 []).sequence ≠ (txn0 .move (some 0)).sequence
      ∧ (⟨[0, 5, 0x83, 7, 0, 0, 0], false, false⟩ : Assembly).close = none
      ∧ (⟨[0, 5], false, false⟩ : Assembly).close = none
      ∧ (((⟨List.replicate 31 0, false, false⟩ : Assembly).add 0 false).bytes.length = 32
        ∧ ((⟨List.replicate 30 0, false, false⟩ : Assembly).add 0 true).bytes.length = 31)
      ∧ waveOk spike = true ∧ lowAt spike 52 = false ∧ waveOk broken = true ∧ framingError 104 broken = true
      ∧ (lineAt .listening (txn0 .summon none) ⟨.lead, 104, some 2, none, false, 0⟩).rx.mode = .lead := by
  decide +kernel

/-- The bits of a start mark on TXD: 0, then 1 0 1 0 0 0 1 1, then 1. -/
theorem test_txd :
    ({ lineAt .sending (txn0 .poll none) .atRest with tx := [0xC5] } : Line).txd =
      [false, true, false, true, false, false, false, true, true, true].map (fun b => (b, 104)) := by
  decide

/-- Start-bit periods at the false-start threshold of 17 and at the classes' bounds. -/
theorem witness_HuntStartBit :
    State.reset.bitLength 0 / 2 = 17 ∧ 16 < State.reset.bitLength 0 / 2
      ∧ (17 ≤ State.reset.maxStart 0 ∧ ∀ d : RateNo, d < 0 → State.reset.maxStart d < 17)
      ∧ (109 ≤ State.reset.maxStart 2 ∧ ∀ d : RateNo, d < 2 → State.reset.maxStart d < 109)
      ∧ 3500 ≤ State.reset.maxStart 7 := by
  decide +kernel

theorem witness_Frame : (frame0 5 0x85 7 (List.replicate 24 0xCB)).payload.length ≤ 24 := by decide

/-! ### Witnesses: answers and claims -/

/-- An answer to a hunt, a poll, a MOVE or a CHECK of record 3. -/
def heldOf (fn : Byte) (kind : TxnKind) (slot : Option SlotNo) (payload : List Byte) : Held :=
  ⟨fn, 7, payload, txn0 kind slot, some 2, 1⟩

/-- An answer alone in its hold, the store free, is opened. -/
theorem openedAnswer_answered (h : Held) (r : Record) (m : Option Move) :
    openedAnswer .whole h.function (answered h (base r m)) =
      some (h, (answered h (base r m)).time.count, (answered h (base r m)).takeAnswer 0) := by
  have h0 : ((answered h (base r m)).line 0).receiveHold = [h] := by
    unfold answered; rw [State.line_modLine_self]
  have h1 : ((answered h (base r m)).line 1).receiveHold = [] := by
    unfold answered
    rw [State.line_modLine_other (by decide)]
    simp [State.line, base, State.setRecord, State.setSlot, State.modFeeder, State.reset, Line.reset]
  have ho : (answered h (base r m)).oldestAnswer = some (0, h) := by simp [State.oldestAnswer, h0, h1]
  simp [openedAnswer, ho]
  rfl

theorem witness_Answers :
    (heldOf 0x81 .summon none [0, 1, 0, 50, 0, 9, 0]).payload.length ≠ 11
      ∧ (payFigures [0, 1, 0, 50, 0, 9, 0]).fault = 0 ∧ payByte [0, 1, 0, 50, 0, 9, 0] 0 = 0
      ∧ payByte [1, 1, 0, 50, 0, 9, 0] 0 ≠ 0
      ∧ ({ rec0 with state := .provisional, generation := 1 } : Record).generation = (txn0 .summon none).generation
      ∧ (payByte [1, 2, 0, 50, 0, 9, 0] 0).getLsbD 0 = true ∧ phaseOf (payByte [1, 2, 0, 50, 0, 9, 0] 1).toNat ≠ some .A
      ∧ (payByte [0, 2, 0, 50, 0, 9, 0] 0).getLsbD 0 = false
      ∧ rec0.autoRestore = true ∧ rec0.allowed.get .A = true ∧ faultAfter rec0.fault 0 0 = none := by
  decide +kernel

theorem witness_fitsMove (r : Record) (hm : r.move = some 0) (hg : r.generation = 1) (st : MoveState) (fn : Byte)
    (kind : TxnKind) (payload : List Byte) :
    fitsMove (heldOf fn kind (some 0) payload) st
        (answered (heldOf fn kind (some 0) payload) (base r (some (moveUp st)))) 0 (moveUp st)
      ∧ (answered (heldOf fn kind (some 0) payload) (base r (some (moveUp st)))).record (moveUp st).index = r := by
  have hr : (answered (heldOf fn kind (some 0) payload) (base r (some (moveUp st)))).record 3 = r :=
    base_self r (some (moveUp st))
  refine ⟨⟨rfl, (base_slot _ _).1, ?_, ?_, rfl, rfl⟩, hr⟩
  · show (State.record _ 3).generation = 1
    rw [hr]; exact hg
  · show (State.record _ 3).move = some 0
    rw [hr]; exact hm

/-- The records a move's end finds: ACTIVE with its target, RETIRING with none, and one with another target to follow, its
slot the lowest then free. -/
theorem witness_MoveEnds (h : Held) :
    inService queuedRec ∧ inService { queuedRec with state := .retiring, target := none }
      ∧ (⟨.C, 4, .host⟩ : Target).phase ≠ (moveUp .checking).toPhase
      ∧ LowestFreeBut (answered h (base { queuedRec with target := some ⟨.C, 4, .host⟩ } (some (moveUp .checking)))) 0 0
      ∧ (answered h (base queuedRec (some (moveUp .checking)))).listed 3 = false
      ∧ (payByte [4, 2, 0, 124, 5, 10, 0] 0).toNat = 4 ∧ lands queuedRec.fault 255
      ∧ ({ moveUp .checking with inProgressSeen := 3 } : Move).inProgressSeen = 3 := by
  refine ⟨Or.inl rfl, Or.inr rfl, by decide, ⟨Or.inl rfl, fun j hj => absurd hj (by simp)⟩, rfl, by decide,
    ⟨by decide, fun x h => ?_⟩, rfl⟩
  exact absurd (show (none : Option FaultField) = some x from h) (by simp)

/-- What a REPORT finds of record 3: no move, a QUEUED move and one in flight; its target reached and not; a code that
lands; and a restart that restores and one that does not. -/
theorem witness_Report (h : Held) :
    (∀ r m, (answered h (base r m)).record 3 = r)
      ∧ QueuedAt (answered h (base queuedRec (some queuedMove))) 3 0 queuedMove
      ∧ FlyingAt (answered h (base queuedRec (some (moveUp .switching)))) 3 0 (moveUp .switching)
      ∧ queuedRec.target.any (fun tg => phaseOf 2 = some tg.phase) = true
      ∧ queuedRec.target.any (fun tg => phaseOf 3 = some tg.phase) = false
      ∧ lands queuedRec.fault 9 ∧ ¬ lands queuedRec.fault 0
      ∧ (queuedRec.phase = some .A ∧ phaseOf 3 ≠ some .A ∧ queuedRec.autoRestore = true ∧ queuedRec.hold = none
        ∧ faultAfter queuedRec.fault 0 0 = none ∧ queuedRec.allowed.get .A = true)
      ∧ ({ queuedRec with autoRestore := false } : Record).autoRestore ≠ true
      ∧ LowestFreeBut (answered h (base queuedRec (some (moveUp .switching)))) 0 0
      ∧ LowestFree (answered h (base rec0 none)) 0 ∧ (answered h (base rec0 none)).listed 3 = false := by
  refine ⟨fun r m => base_self r m, base_queued _ rfl, base_flying _ rfl _ (by decide), by decide, by decide,
    ⟨by decide, fun x h => ?_⟩, fun h => h.1 rfl, ⟨rfl, by decide, rfl, rfl, rfl, rfl⟩, by decide,
    ⟨Or.inl rfl, fun j hj => absurd hj (by simp)⟩, (base_lowest rec0 none).1 rfl, rfl⟩
  exact absurd (show (none : Option FaultField) = some x from h) (by simp)

/-- A move in flight of a record whose index still stands in the waiting list, as a restore or a follow-up finds it. -/
theorem witness_Listed :
    let s : State := { base queuedRec (some (moveUp .checking)) with
      sched := { (base queuedRec (some (moveUp .checking))).sched with waitingList := [⟨3, 4⟩] } }
    FlyingAt s 3 0 (moveUp .checking) ∧ s.listed 3 = true :=
  ⟨base_flying queuedRec rfl .checking (by decide), rfl⟩

/-- The claims of other blocks, each served alone. -/
theorem witness_Claims :
    opened .whole (· == .slotFree) (claimed .slotFree (base rec0 none)) ≠ none
      ∧ opened .whole (fun c => match c with | .checkExhausted x _ _ => x == 0 | _ => false)
          (claimed (.checkExhausted 0 ⟨3, 1⟩ 7) (base queuedRec (some (moveUp .checking)))) ≠ none
      ∧ opened .whole (fun c => match c with | .lineStopLost x _ _ => x == 0 | _ => false)
          (claimed (.lineStopLost 0 ⟨3, 1⟩ 7) (base queuedRec (some (moveUp .switching)))) ≠ none
      ∧ opened .whole (fun c => match c with | .huntFailure x _ => x.index == 3 | _ => false)
          (claimed (.huntFailure ⟨3, 1⟩ .silent) (base rec0 none)) ≠ none
      ∧ opened .whole (fun c => match c with | .uncountedHunt x => x.index == 3 | _ => false)
          (claimed (.uncountedHunt ⟨3, 1⟩) (base rec0 none)) ≠ none
      ∧ (moveUp .checking).sequence = some 7 ∧ (moveUp .checking).index = 3 ∧ (moveUp .checking).generation = 1
      ∧ ({ rec0 with state := .provisional, huntFailures := 2 } : Record).huntFailures = 2
      ∧ ({ base rec0 none with sched := { State.reset.sched with waitingList := [⟨3, 4⟩] } } : State).sched.waitingList =
          ⟨3, 4⟩ :: []
      ∧ (∀ tg, ¬ waitsWith ((base rec0 none).record 4) tg) := by
  refine ⟨?_, ?_, ?_, ?_, ?_, rfl, rfl, rfl, rfl, rfl, fun tg h => ?_⟩
  iterate 5 rw [opened_claimed rfl rfl rfl]; exact Option.some_ne_none _
  rw [base_other _ _ (by decide)] at h
  exact absurd h.1 (by decide)

end Sys2Proof.Tests
end

section
/-! PROOFS. The balancer's selection scan: which records qualify, and which of them the scan keeps (R99 to R101). -/
namespace Sys2Proof.Machine
open Sys2Proof

/-! ### The order of the choices (R101) -/

/-- A choice comes first of two: a lower score, then an importer before an exporter, then the lower index (R101). -/
def Choice.FirstOf (x y : Choice) : Prop :=
  x.score < y.score ∨ (x.score = y.score ∧ ((x.importer = true ∧ y.importer = false)
    ∨ (x.importer = y.importer ∧ x.index ≤ y.index)))

theorem Choice.FirstOf.refl (x : Choice) : x.FirstOf x :=
  Or.inr ⟨rfl, Or.inr ⟨rfl, Nat.le_refl _⟩⟩

theorem Choice.FirstOf.trans {x y z : Choice} (hxy : x.FirstOf y) (hyz : y.FirstOf z) : x.FirstOf z := by
  rcases hxy with hxy | ⟨hxy, way⟩
  · rcases hyz with hyz | ⟨hyz, -⟩
    · exact Or.inl (Nat.lt_trans hxy hyz)
    · exact Or.inl (hyz ▸ hxy)
  · rcases hyz with hyz | ⟨hyz, way'⟩
    · exact Or.inl (hxy ▸ hyz)
    · refine Or.inr ⟨hxy.trans hyz, ?_⟩
      rcases way with ⟨hx, hy⟩ | ⟨hx, hi⟩
      · rcases way' with ⟨hy', -⟩ | ⟨hy', -⟩
        · exact absurd (hy.symm.trans hy') Bool.false_ne_true
        · exact Or.inl ⟨hx, hy' ▸ hy⟩
      · rcases way' with ⟨hy, hz⟩ | ⟨hy, hj⟩
        · exact Or.inl ⟨hx.trans hy, hz⟩
        · exact Or.inr ⟨hx.trans hy, Nat.le_trans hi hj⟩

/-- A later choice takes the place of an earlier one exactly when it beats it on score or way, index apart. -/
theorem Choice.beats_iff (x y : Choice) :
    x.beats y = true ↔ x.score < y.score ∨ (x.score = y.score ∧ x.importer = true ∧ y.importer = false) := by
  simp [Choice.beats, and_assoc]

theorem Choice.firstOf_of_beats {x y : Choice} (h : x.beats y = true) : x.FirstOf y :=
  ((Choice.beats_iff x y).mp h).imp id fun ⟨hscore, hway⟩ => ⟨hscore, Or.inl hway⟩

/-- A choice that a later one of higher index does not beat comes first of the two. -/
theorem Choice.firstOf_of_not_beats {x y : Choice} (h : ¬ x.beats y = true) (hi : y.index ≤ x.index) : y.FirstOf x := by
  rw [Choice.beats_iff, not_or, Nat.not_lt] at h
  obtain ⟨hle, hway⟩ := h
  rcases Nat.lt_or_eq_of_le hle with hlt | heq
  · exact Or.inl hlt
  · refine Or.inr ⟨heq, ?_⟩
    cases hx : x.importer <;> cases hy : y.importer
    · exact Or.inr ⟨rfl, hi⟩
    · exact Or.inl ⟨rfl, rfl⟩
    · exact absurd ⟨heq.symm, hx, hy⟩ hway
    · exact Or.inr ⟨rfl, hi⟩

/-- Of the choice so far and a further one of higher index, `better` keeps the one that comes first. -/
theorem Choice.better_firstOf {x y : Choice} (hi : y.index ≤ x.index) :
    ∃ c, Choice.better (some y) x = some c ∧ (c = y ∨ c = x) ∧ c.FirstOf y ∧ c.FirstOf x := by
  by_cases h : x.beats y = true
  · exact ⟨x, by simp [Choice.better, h], Or.inr rfl, Choice.firstOf_of_beats h, .refl x⟩
  · exact ⟨y, by simp [Choice.better, h], Or.inl rfl, .refl y, Choice.firstOf_of_not_beats h hi⟩

/-- A fold of `better` over choices of ascending index ends with one of them that comes first of all. -/
theorem Choice.foldl_better_firstOf (l : List Choice) (y : Choice)
    (hl : (y :: l).Pairwise (fun a b => a.index < b.index)) :
    ∃ c, l.foldl Choice.better (some y) = some c ∧ c ∈ y :: l ∧ ∀ z ∈ y :: l, c.FirstOf z := by
  induction l generalizing y with
  | nil => exact ⟨y, rfl, List.mem_singleton.mpr rfl, fun z hz => List.mem_singleton.mp hz ▸ .refl y⟩
  | cons x l ih =>
    obtain ⟨hy, hxl⟩ := List.pairwise_cons.mp hl
    obtain ⟨hx, hl'⟩ := List.pairwise_cons.mp hxl
    obtain ⟨b, hb, hfrom, hby, hbx⟩ := Choice.better_firstOf (Nat.le_of_lt (hy x List.mem_cons_self))
    have hsorted : (b :: l).Pairwise (fun a b => a.index < b.index) := by
      refine List.pairwise_cons.mpr ⟨fun z hz => ?_, hl'⟩
      rcases hfrom with rfl | rfl
      · exact hy z (List.mem_cons_of_mem _ hz)
      · exact hx z hz
    obtain ⟨c, hc, hmem, hfirst⟩ := ih b hsorted
    refine ⟨c, by rw [List.foldl_cons, hb, hc], ?_, fun z hz => ?_⟩
    · rcases List.mem_cons.mp hmem with rfl | hmem
      · rcases hfrom with rfl | rfl <;> simp
      · simp [hmem]
    · have hcb := hfirst b List.mem_cons_self
      rcases List.mem_cons.mp hz with rfl | hz
      · exact hcb.trans hby
      · rcases List.mem_cons.mp hz with rfl | hz
        · exact hcb.trans hbx
        · exact hfirst z (List.mem_cons_of_mem _ hz)

/-! ### Candidates and the way they qualify (R99, R100) -/

/-- A due value "until" is absent or has passed. -/
theorem passedBy_iff (due : Option Nat) (now : Nat) : passedBy due now = true ↔ ∀ d, due = some d → d ≤ now := by
  cases due <;> simp [passedBy]

/-- The scan's test is the candidate of R99. -/
theorem Record.candidate_iff (r : Record) (f : FeederNo) (now : Nat) :
    r.candidate f now = true ↔ isCandidate f now r := by
  simp [Record.candidate, isCandidate, passedBy_iff, and_assoc, Option.isSome_iff_ne_none]

/-- The scan's choice for a record names the record, and the way, the phase and the score of R100 and R101. -/
theorem Record.qualify_eq_some_iff (r : Record) (i : RecIdx) (x : Feeder) (c : Choice) :
    r.qualify i x = some c ↔ c.index = i ∧ qualifiesAs x r c.importer c.phase c.score := by
  obtain ⟨index, importer, phase, score⟩ := c
  unfold Record.qualify qualifiesAs
  dsimp only
  by_cases hbig : x.spread ≤ (r.current.a.natAbs : Int)
  · rw [if_pos hbig]
    exact iff_of_false (Option.some_ne_none _).symm fun ⟨_, hsmall, _⟩ => Int.not_lt.mpr hbig hsmall
  rw [if_neg hbig]
  by_cases himp : 0 < r.current.a ∧ r.phase = some x.heaviest ∧ r.allowed.get x.lightest = true
  · rw [if_pos himp]
    obtain ⟨hpos, hphase, hallowed⟩ := himp
    simp only [Option.some.injEq, Choice.mk.injEq]
    constructor
    · rintro ⟨rfl, rfl, rfl, rfl⟩
      exact ⟨rfl, Int.not_le.mp hbig, rfl, Or.inl ⟨rfl, hpos, hphase, rfl⟩, hallowed⟩
    · rintro ⟨rfl, -, rfl, ⟨rfl, -, -, rfl⟩ | ⟨-, hneg, -⟩, -⟩
      · exact ⟨rfl, rfl, rfl, rfl⟩
      · exact absurd hneg (Int.lt_asymm hpos)
  rw [if_neg himp]
  by_cases hexp : r.current.a < 0 ∧ r.phase = some x.lightest ∧ r.allowed.get x.heaviest = true
  · rw [if_pos hexp]
    obtain ⟨hneg, hphase, hallowed⟩ := hexp
    simp only [Option.some.injEq, Choice.mk.injEq]
    constructor
    · rintro ⟨rfl, rfl, rfl, rfl⟩
      exact ⟨rfl, Int.not_le.mp hbig, rfl, Or.inr ⟨rfl, hneg, hphase, rfl⟩, hallowed⟩
    · rintro ⟨rfl, -, rfl, ⟨-, hpos, -⟩ | ⟨rfl, -, -, rfl⟩, -⟩
      · exact absurd hneg (Int.lt_asymm hpos)
      · exact ⟨rfl, rfl, rfl, rfl⟩
  · rw [if_neg hexp]
    refine iff_of_false (Option.some_ne_none _).symm ?_
    rintro ⟨-, -, -, ⟨-, hpos, hphase, rfl⟩ | ⟨-, hneg, hphase, rfl⟩, hallowed⟩
    · exact himp ⟨hpos, hphase, hallowed⟩
    · exact hexp ⟨hneg, hphase, hallowed⟩

/-! ### The scan over the table -/

/-- The records with their indexes are those of the indexes 0 to 511 in order. -/
theorem State.indexed_eq (s : State) : s.indexed = (List.finRange 512).map (fun i => (s.record i, i)) := by
  refine List.ext_getElem (by simp [State.indexed]) fun n hn _ => ?_
  have hn : n < 512 := by simpa [State.indexed] using hn
  simp [State.indexed, State.record, Fin.ofNat, Nat.mod_eq_of_lt hn]

/-- The choices the scan compares: for each candidate that qualifies its own, in ascending index (R99, R100). -/
def State.qualified (s : State) (f : FeederNo) : List Choice :=
  (List.finRange 512).filterMap fun i =>
    if (s.record i).candidate f s.now then (s.record i).qualify i (s.feeder f) else none

theorem State.choose_eq_foldl (s : State) (f : FeederNo) :
    s.choose f = (s.qualified f).foldl Choice.better none := by
  simp only [State.choose, State.qualified, State.indexed_eq, List.filterMap_map]
  rfl

theorem State.mem_qualified (s : State) (f : FeederNo) (c : Choice) :
    c ∈ s.qualified f ↔ isCandidate f s.now (s.record c.index)
      ∧ qualifiesAs (s.feeder f) (s.record c.index) c.importer c.phase c.score := by
  simp only [State.qualified, List.mem_filterMap, List.mem_finRange, true_and, Option.ite_none_right_eq_some,
    Record.qualify_eq_some_iff, Record.candidate_iff]
  constructor
  · rintro ⟨i, hcand, rfl, hqual⟩
    exact ⟨hcand, hqual⟩
  · rintro ⟨hcand, hqual⟩
    exact ⟨c.index, hcand, rfl, hqual⟩

theorem State.qualified_ascending (s : State) (f : FeederNo) :
    (s.qualified f).Pairwise (fun a b => a.index < b.index) := by
  refine List.pairwise_filterMap.mpr ((List.pairwise_lt_finRange 512).imp fun hij a ha b hb => ?_)
  simp only [Option.ite_none_right_eq_some, Record.qualify_eq_some_iff] at ha hb
  obtain ⟨-, rfl, -⟩ := ha
  obtain ⟨-, rfl, -⟩ := hb
  exact hij

/-- The scan chooses none only when no record qualifies. -/
theorem State.choose_eq_none_iff (s : State) (f : FeederNo) : s.choose f = none ↔ s.qualified f = [] := by
  rw [State.choose_eq_foldl]
  have hsorted := s.qualified_ascending f
  cases hl : s.qualified f with
  | nil => simp
  | cons x l =>
    obtain ⟨c, hc, -⟩ := Choice.foldl_better_firstOf l x (hl ▸ hsorted)
    simp [Choice.better, hc]

/-- The scan chooses one of the choices it compares, and one that comes first of them all (R101). -/
theorem State.choose_firstOf {s : State} {f : FeederNo} {c : Choice} (h : s.choose f = some c) :
    c ∈ s.qualified f ∧ ∀ z ∈ s.qualified f, c.FirstOf z := by
  rw [State.choose_eq_foldl] at h
  have hsorted := s.qualified_ascending f
  cases hl : s.qualified f with
  | nil => simp [hl] at h
  | cons x l =>
    obtain ⟨b, hb, hbest⟩ := Choice.foldl_better_firstOf l x (hl ▸ hsorted)
    rw [hl, List.foldl_cons] at h
    obtain rfl : b = c := Option.some.inj (hb.symm.trans h)
    exact hbest

/-- Settles O29: the scan folds `better` over the choices of the qualifying candidates in ascending index, and the fold
keeps the first of them in the order of R101. -/
theorem selectionChoosesTheBestCandidate : Obligations.SelectionChoosesTheBestCandidate := by
  intro f s
  refine ⟨fun c hc => ?_, fun hnone j hj importer dest score hq => ?_⟩
  · obtain ⟨hmem, hfirst⟩ := State.choose_firstOf hc
    obtain ⟨hcand, hqual⟩ := (s.mem_qualified f c).mp hmem
    exact ⟨hcand, hqual, fun j importer dest score hj hq =>
      hfirst ⟨j, importer, dest, score⟩ ((s.mem_qualified f _).mpr ⟨hj, hq⟩)⟩
  · have hmem : (⟨j, importer, dest, score⟩ : Choice) ∈ s.qualified f := (s.mem_qualified f _).mpr ⟨hj, hq⟩
    rw [(s.choose_eq_none_iff f).mp hnone] at hmem
    exact List.not_mem_nil hmem

end Sys2Proof.Machine
end

section
/-! PROOFS. The requests that their block serves as they are taken, with CONFIGURE SURVEY and SET TIME settled by them
(R156, R159, R172). -/
namespace Sys2Proof.Machine
open Sys2Proof

/-! ### The state a request served directly runs on (R172) -/

/-- The part as the body of a request served directly finds it: the request in service with its reservations, a new
moment begun. -/
def State.atService (q : InService) (s : State) : State := (s.intoService q.raw s.engine.queue.tail).newMoment

@[simp] theorem State.atService_pending (q : InService) (s : State) : (s.atService q).pending = s.pending := rfl
@[simp] theorem State.atService_port (q : InService) (s : State) : (s.atService q).port = s.port := rfl
@[simp] theorem State.atService_store (q : InService) (s : State) : (s.atService q).store = s.store := rfl
@[simp] theorem State.atService_sched (q : InService) (s : State) : (s.atService q).sched = s.sched := rfl
@[simp] theorem State.atService_feeders (q : InService) (s : State) : (s.atService q).feeders = s.feeders := rfl
@[simp] theorem State.atService_batch (q : InService) (s : State) : (s.atService q).batch = s.batch := rfl
@[simp] theorem State.atService_lines (q : InService) (s : State) : (s.atService q).lines = s.lines := rfl
@[simp] theorem State.atService_rate (q : InService) (s : State) : (s.atService q).rate = s.rate := rfl
@[simp] theorem State.atService_survey (q : InService) (s : State) : (s.atService q).survey = s.survey := rfl
@[simp] theorem State.atService_time (q : InService) (s : State) : (s.atService q).time = s.time := rfl

/-! ### The answer of a request served directly -/

section
variable {k : ReqKind} {q : InService} {s u : State} {body : Body} {st : Status} {result : List Byte} {r : Reply}

/-- A request served directly whose body leaves the records and the slots hands nothing on: it ends with its reply. -/
theorem serveDirect_eq_reply (h : directRequest k q s)
    (hbody : body q.raw s.time.count (s.atService q) = (u, r))
    (htable : u.store.table = s.store.table) (hslots : u.sched.slots = s.sched.slots) :
    serveDirect k body s = u.reply q r := by
  obtain ⟨raw, entry⟩ := q
  have ⟨_, (hentry : entry = none), _⟩ := h
  subst hentry
  have hquiet : State.handOn (s.atService ⟨raw, none⟩) u = u := State.handOn_quiet htable hslots
  calc serveDirect k body s
      = s.takeDirect body raw s.engine.queue.tail := serveDirect_eq h body
    _ = (State.handOn (s.atService ⟨raw, none⟩) (body raw s.time.count (s.atService ⟨raw, none⟩)).1).reply ⟨raw, none⟩
          (body raw s.time.count (s.atService ⟨raw, none⟩)).2 := rfl
    _ = u.reply ⟨raw, none⟩ r := by rw [hbody, hquiet]

/-- A request served directly is answered over the queue without it, where its body leaves the Request Engine. -/
theorem reply_answered_taken (hengine : u.engine = (s.atService q).engine) :
    Answered (taken s) (u.reply q (.complete st result)) q st result :=
  State.reply_answered q st result (by rw [hengine]; rfl) (by rw [hengine]; rfl) (by rw [hengine]; rfl)

end

/-! ### CONFIGURE SURVEY (R159) -/

/-- An on/off parameter is on for every byte but 0 (R189). -/
theorem onOff_eq_true_iff (b : Byte) : onOff b = true ↔ b ≠ 0 := bne_iff_ne

section
variable (v : Survey) {enable : Bool} {period : Nat} (now : Nat)

@[simp] theorem Survey.configure_enable : (v.configure enable period now).enable = enable := rfl
@[simp] theorem Survey.configure_period : (v.configure enable period now).period = period := rfl

theorem Survey.configure_timer_of_off (hoff : enable = false) : (v.configure enable period now).timer = none := by
  subst hoff; rfl

theorem Survey.configure_timer_of_changed (hon : enable = true) (h : v.enable = false ∨ v.period ≠ period) :
    (v.configure enable period now).timer = some (now + 10 * period) := by
  have hchanged : ¬ (v.enable = true ∧ period = v.period) := by
    rintro ⟨hv, hp⟩
    rcases h with h | h
    · exact Bool.false_ne_true (h.symm.trans hv)
    · exact h hp.symm
  subst hon
  exact if_neg hchanged

theorem Survey.configure_timer_of_same (hon : enable = true) (hv : v.enable = true) (hp : v.period = period) :
    (v.configure enable period now).timer = v.timer := by
  subst hon
  exact if_pos ⟨hv, hp.symm⟩

end

/-- The part as the body of CONFIGURE SURVEY leaves it, its request still to be answered. -/
def State.surveySet (q : InService) (s : State) : State :=
  { s.atService q with
    survey := s.survey.configure (onOff (param q.raw 0)) (inRange 5 3600 (paramNat q.raw 1 2)) s.now }

/-- The reply of CONFIGURE SURVEY: the enable, the period and the time remaining as the Survey Unit then holds them. -/
def Survey.image (v : Survey) (now : Nat) : Reply :=
  .complete .ok (boolByte v.enable :: be16 v.period ++ be16 (remainingTenths v.timer now))

theorem exec_configureSurvey {q : InService} {s : State} (h : directRequest .configureSurvey q s) :
    exec .configureSurvey s = .next ((s.surveySet q).reply q ((s.surveySet q).survey.image s.now)) :=
  congrArg Host.Outcome.next (serveDirect_eq_reply (body := bodyConfigureSurvey) h rfl rfl rfl)

/-- Settles O39: the serving ends with its reply, and the Survey Unit is what `Survey.configure` makes of it, its timer
by the three cases of R159. -/
theorem configureSurveyStoresThePeriod : Obligations.ConfigureSurveyStoresThePeriod := by
  intro q s h on n
  have hsurvey : ((s.surveySet q).reply q ((s.surveySet q).survey.image s.now)).survey
      = s.survey.configure (onOff (param q.raw 0)) n s.now := State.reply_survey ..
  have hon : onOff (param q.raw 0) = true ↔ on := onOff_eq_true_iff _
  refine ⟨_, exec_configureSurvey h, ?enable, ?period, ?answered, ?off, ?starts, ?stands, ?table, ?units, ?rest⟩
  case enable => rw [hsurvey, Survey.configure_enable]; exact hon
  case period => rw [hsurvey, Survey.configure_period]
  case answered => rw [hsurvey]; exact reply_answered_taken rfl
  case off =>
    intro hoff
    rw [hsurvey]
    exact Survey.configure_timer_of_off _ _ (Bool.eq_false_iff.mpr (mt hon.mp hoff))
  case starts =>
    intro hset hchanged
    rw [hsurvey]
    exact Survey.configure_timer_of_changed _ _ (hon.mpr hset) hchanged
  case stands =>
    intro hset henabled hperiod
    rw [hsurvey]
    exact Survey.configure_timer_of_same _ _ (hon.mpr hset) henabled hperiod
  case table => simp [TableStands, State.surveySet]
  case units => simp [UnitsStand, State.surveySet]
  case rest => simp [State.surveySet]

/-! ### SET TIME (R156) -/

/-- The part as the body of SET TIME leaves it, its request still to be answered: the Time Count alone is loaded. -/
def State.timeSet (q : InService) (n : Word32) (s : State) : State :=
  { s.atService q with time := { s.time with count := n } }

theorem exec_setTime {q : InService} {s : State} (h : directRequest .setTime q s) :
    exec .setTime s = .next ((s.timeSet q (BitVec.ofNat 32 (paramNat q.raw 0 4))).reply q (.complete .ok
      (be32 s.time.count.toNat ++ be32 (BitVec.ofNat 32 (paramNat q.raw 0 4)).toNat))) :=
  congrArg Host.Outcome.next (serveDirect_eq_reply (body := bodySetTime) h rfl rfl rfl)

/-- Settles O40: the serving loads the Time Count and ends with its reply, which leaves the Time Base and the Record
Store with its claims. -/
theorem setTimeLoadsTheCount : Obligations.SetTimeLoadsTheCount := by
  intro q s h
  refine ⟨_, _, exec_setTime h, rfl, ?time, reply_answered_taken rfl, ?store, ?units, ?rest⟩
  case time => simp [State.timeSet]
  case store => simp [State.timeSet]
  case units => simp [UnitsStand, State.timeSet]
  case rest => simp [State.timeSet]

end Sys2Proof.Machine
end

section
/-! PROOFS. SPI operations that come to their end: the transaction they end and what it clocks out (R167), what a port
control then leaves (R171), and RESTART QUEUE and FLUSH QUEUE settled by them (R174). -/
namespace Sys2Proof.Machine
open Sys2Proof

/-! ### The transaction that an operation ends (R167, R181) -/

theorem State.heldTxn_summary (s : State) : s.heldTxn.summary = summaryFor s := by
  unfold State.heldTxn summaryFor
  cases s.port.txn <;> rfl

section
variable {part : SpiPart} {op : Byte} {s : State}

theorem canDecode_of_spiEnds_whole (h : spiEnds .whole op s = true) : s.canDecode = true := by
  unfold spiEnds at h
  unfold State.canDecode
  cases htxn : s.port.txn with
  | none => rfl
  | some x =>
    have ⟨hop, _⟩ : x.op.isNone = true ∧ x.ignored = false := by simpa [htxn] using h
    exact hop

theorem heldTxn_ignored_of_spiEnds_whole (h : spiEnds .whole op s = true) : s.heldTxn.ignored = false := by
  unfold spiEnds at h
  unfold State.heldTxn
  cases htxn : s.port.txn with
  | none => rfl
  | some x =>
    have ⟨_, hignored⟩ : x.op.isNone = true ∧ x.ignored = false := by simpa [htxn] using h
    exact hignored

theorem exists_txn_of_spiEnds_ends (h : spiEnds .ends op s = true) :
    ∃ x, s.port.txn = some x ∧ x.op = some op ∧ x.ignored = false := by
  simpa [spiEnds, Option.any_eq_true] using h

/-- A transaction that is not ignored has its effect at its end (R181). -/
theorem State.endTxn_of_not_ignored {t : SpiTxn} (h : t.ignored = false) (following : Nat)
    (finish : SpiTxn → State → State) : s.endTxn t following finish = finish t s := by
  simp [State.endTxn, h]

theorem State.openTxn_of_not_ignored (h : s.heldTxn.ignored = false) (fix : State → List Byte × Bool) :
    s.openTxn op fix = { s.heldTxn with op := some op, out := (fix s).1, head := (fix s).2 } := by
  simp [State.openTxn, h]

/-- An operation that comes to its end finishes one transaction: where the command is the whole of it, the one CSn's fall
began, with the bytes to send fixed now; otherwise the one in progress, with the bytes fixed before (R167). -/
theorem spiOperation_ended (h : spiEnds part op s = true) (following : Nat) (fix : State → List Byte × Bool)
    (finish : SpiTxn → State → State) :
    ∃ x, spiOperation part op following fix finish s = finish x s
      ∧ (part = .whole → x.summary = summaryFor s ∧ x.out = (fix s).1 ∧ x.head = (fix s).2)
      ∧ (part = .ends → s.port.txn = some x) := by
  cases part with
  | whole =>
    have hignored := heldTxn_ignored_of_spiEnds_whole h
    have hopen := State.openTxn_of_not_ignored (op := op) hignored fix
    refine ⟨s.openTxn op fix, ?_, fun _ => ?_, nofun⟩
    · calc spiOperation .whole op following fix finish s
          = s.endTxn (s.openTxn op fix) following finish := if_pos (canDecode_of_spiEnds_whole h)
        _ = finish (s.openTxn op fix) s := State.endTxn_of_not_ignored (by rw [hopen]; exact hignored) _ _
    · rw [hopen]
      exact ⟨s.heldTxn_summary, rfl, rfl⟩
  | ends =>
    obtain ⟨x, htxn, hop, hignored⟩ := exists_txn_of_spiEnds_ends h
    refine ⟨x, ?_, nofun, fun _ => htxn⟩
    calc spiOperation .ends op following fix finish s
        = s.endTxn x following finish := by simp [spiOperation, htxn, hop]
      _ = finish x s := State.endTxn_of_not_ignored hignored _ _
  | selects | inReset | begins => exact absurd h Bool.false_ne_true

/-- A write shows the summary and then 00H, whatever state its effect leaves (R167). -/
theorem writeClocked_clocked {x : SpiTxn} {taken extra : Nat} (u : State)
    (hwhole : part = .whole → x.summary = summaryFor s ∧ x.out = List.replicate taken 0)
    (hends : part = .ends → s.port.txn = some x) :
    WriteClocked part taken extra s (u.clocked x (List.replicate extra 0)) := by
  refine ⟨rfl, fun hp => ?_, fun y hp hy => ?_⟩
  · obtain ⟨hsummary, hout⟩ := hwhole hp
    simp [State.clocked, hsummary, hout]
  · obtain rfl : x = y := Option.some.inj ((hends hp).symm.trans hy)
    rfl

end

/-! ### A port control that comes to its end (R171) -/

section
variable {c : Control} {s : State} (h : spiEnds c.part 4 s = true) (effect : State → State)
include h

theorem control_ended :
    ∃ x, control c effect s = (effect s).clocked x (List.replicate c.extra 0)
      ∧ WriteClocked c.part 4 c.extra s ((effect s).clocked x (List.replicate c.extra 0)) := by
  obtain ⟨x, hfinish, hwhole, hends⟩ := spiOperation_ended h (4 + c.extra) (zerosFor 4)
    (fun t s => (effect s).clocked t (List.replicate c.extra 0))
  have hzeros (hp : c.part = .whole) : x.summary = summaryFor s ∧ x.out = List.replicate 4 0 :=
    have ⟨hsummary, hout, _⟩ := hwhole hp
    ⟨hsummary, hout⟩
  exact ⟨x, hfinish, writeClocked_clocked (effect s) hzeros hends⟩

/-- Beyond the port, a control has its effect and no other (R171). -/
theorem control_eq_effect :
    control c effect s = { effect s with port := ⟨none, (control c effect s).port.sdo⟩ } := by
  obtain ⟨x, hctl, -⟩ := control_ended h effect
  rw [hctl]
  rfl

theorem control_writeClocked : WriteClocked c.part 4 c.extra s (control c effect s) := by
  obtain ⟨x, hctl, hclocked⟩ := control_ended h effect
  rw [hctl]
  exact hclocked

end

/-! ### RESTART QUEUE and FLUSH QUEUE (R174) -/

theorem exec_restartQueue (c : Control) (s : State) :
    exec (.restartQueue c) s = .next (control c State.restartQueue s) := rfl

theorem exec_flushQueue (c : Control) (s : State) :
    exec (.flushQueue c) s = .next (control c State.flushQueue s) := rfl

/-- RESTART QUEUE changes the Request Engine alone: a STOPPED queue runs, with the recorded previous status OK. -/
theorem State.restartQueue_eq (s : State) :
    s.restartQueue = { s with
      engine := if s.engine.stopped then { s.engine with stopped := false, previous := .ok } else s.engine } := by
  unfold State.restartQueue
  split <;> rfl

/-- Settles O12: each control comes to its end with its effect on the Request Engine and with what a write clocks out. -/
theorem restartAndFlushQueue : Obligations.RestartAndFlushQueue := by
  intro c s h
  refine ⟨⟨_, exec_restartQueue c s, ?restarted, control_writeClocked h _⟩,
    ⟨_, exec_flushQueue c s, ?flushed, control_writeClocked h _⟩⟩
  case restarted =>
    have heffect := control_eq_effect h State.restartQueue
    rwa [State.restartQueue_eq] at heffect
  case flushed => exact control_eq_effect h State.flushQueue

end Sys2Proof.Machine
end
